-- ==== Sys2Proof/Word.lean ====
section
/-! DEFINITION. The two word types of the machine (spec/00_scope.md R4, spec/10_state.md R10): a byte and a
16-bit word. Everything a test could show wrong stands in Decode.lean and in Machine/. -/

namespace Sys2Proof

/-- A byte: 8 bits, 0 to 255 (R4). -/
abbrev Byte := BitVec 8

/-- A word: 16 bits, 0 to 65535 (R4). Addresses and the program counter are words. -/
abbrev Word := BitVec 16

end Sys2Proof
end

