-- ==== Sys2Proof/Syntax.lean ====
section
/-! DEFINITION. The instructions: one constructor for each of the 151 assigned rows of spec/opcode_table.json
(30_encoding.md R95), named by the mnemonic and, where the mnemonic has several rows, the operand form; and one
constructor, `reserved`, for the 105 rows RESERVED (R97), which share one mnemonic and one outcome.

An argument `b` is the operand byte of format F2, an argument `a` the 16-bit operand `addr16` of format F3 (R70). -/

namespace Sys2Proof

/-- The 13 operand forms (R73). -/
inductive Form where
  /-- implied (R74) -/
  | imp
  /-- accumulator (R75) -/
  | acc
  /-- immediate (R76) -/
  | imm
  /-- zero page (R77) -/
  | zp
  /-- zero page indexed by X (R78) -/
  | zpx
  /-- zero page indexed by Y (R79) -/
  | zpy
  /-- absolute (R80) -/
  | abs
  /-- absolute indexed by X (R81) -/
  | abx
  /-- absolute indexed by Y (R82) -/
  | aby
  /-- absolute indirect (R83) -/
  | ind
  /-- pre-indexed indirect (R84) -/
  | izx
  /-- post-indexed indirect (R85) -/
  | izy
  /-- relative (R86) -/
  | rel
  deriving DecidableEq, Repr

/-- The instructions of opcode_table.json. The docstring of a constructor gives its opcode, its assembler form, the
rule of its meaning and the rule of its operand form. -/
inductive Instr where
  -- 40_load_store.md
  /-- A9 `LDA #Oper`: R121, R76. -/
  | ldaImm (b : Byte)
  /-- A5 `LDA Oper`: R121, R77. -/
  | ldaZp (b : Byte)
  /-- B5 `LDA Oper,X`: R121, R78. -/
  | ldaZpx (b : Byte)
  /-- AD `LDA Oper`: R121, R80. -/
  | ldaAbs (a : Word)
  /-- BD `LDA Oper,X`: R121, R81. -/
  | ldaAbx (a : Word)
  /-- B9 `LDA Oper,Y`: R121, R82. -/
  | ldaAby (a : Word)
  /-- A1 `LDA (Oper,X)`: R121, R84. -/
  | ldaIzx (b : Byte)
  /-- B1 `LDA (Oper),Y`: R121, R85. -/
  | ldaIzy (b : Byte)
  /-- A2 `LDX #Oper`: R122, R76. -/
  | ldxImm (b : Byte)
  /-- A6 `LDX Oper`: R122, R77. -/
  | ldxZp (b : Byte)
  /-- B6 `LDX Oper,Y`: R122, R79. -/
  | ldxZpy (b : Byte)
  /-- AE `LDX Oper`: R122, R80. -/
  | ldxAbs (a : Word)
  /-- BE `LDX Oper,Y`: R122, R82. -/
  | ldxAby (a : Word)
  /-- A0 `LDY #Oper`: R123, R76. -/
  | ldyImm (b : Byte)
  /-- A4 `LDY Oper`: R123, R77. -/
  | ldyZp (b : Byte)
  /-- B4 `LDY Oper,X`: R123, R78. -/
  | ldyZpx (b : Byte)
  /-- AC `LDY Oper`: R123, R80. -/
  | ldyAbs (a : Word)
  /-- BC `LDY Oper,X`: R123, R81. -/
  | ldyAbx (a : Word)
  /-- 85 `STA Oper`: R124, R77. -/
  | staZp (b : Byte)
  /-- 95 `STA Oper,X`: R124, R78. -/
  | staZpx (b : Byte)
  /-- 8D `STA Oper`: R124, R80. -/
  | staAbs (a : Word)
  /-- 9D `STA Oper,X`: R124, R81. -/
  | staAbx (a : Word)
  /-- 99 `STA Oper,Y`: R124, R82. -/
  | staAby (a : Word)
  /-- 81 `STA (Oper,X)`: R124, R84. -/
  | staIzx (b : Byte)
  /-- 91 `STA (Oper),Y`: R124, R85. -/
  | staIzy (b : Byte)
  /-- 86 `STX Oper`: R125, R77. -/
  | stxZp (b : Byte)
  /-- 96 `STX Oper,Y`: R125, R79. -/
  | stxZpy (b : Byte)
  /-- 8E `STX Oper`: R125, R80. -/
  | stxAbs (a : Word)
  /-- 84 `STY Oper`: R126, R77. -/
  | styZp (b : Byte)
  /-- 94 `STY Oper,X`: R126, R78. -/
  | styZpx (b : Byte)
  /-- 8C `STY Oper`: R126, R80. -/
  | styAbs (a : Word)
  -- 41_transfer.md
  /-- AA `TAX`: R131, R74. -/
  | tax
  /-- A8 `TAY`: R132, R74. -/
  | tay
  /-- BA `TSX`: R133, R74. -/
  | tsx
  /-- 8A `TXA`: R134, R74. -/
  | txa
  /-- 9A `TXS`: R135, R74. -/
  | txs
  /-- 98 `TYA`: R136, R74. -/
  | tya
  -- 42_stack.md
  /-- 48 `PHA`: R141, R74. -/
  | pha
  /-- 08 `PHP`: R142, R74. -/
  | php
  /-- 68 `PLA`: R143, R74. -/
  | pla
  /-- 28 `PLP`: R144, R74. -/
  | plp
  -- 43_arithmetic.md
  /-- 69 `ADC #Oper`: R150, R76. -/
  | adcImm (b : Byte)
  /-- 65 `ADC Oper`: R150, R77. -/
  | adcZp (b : Byte)
  /-- 75 `ADC Oper,X`: R150, R78. -/
  | adcZpx (b : Byte)
  /-- 6D `ADC Oper`: R150, R80. -/
  | adcAbs (a : Word)
  /-- 7D `ADC Oper,X`: R150, R81. -/
  | adcAbx (a : Word)
  /-- 79 `ADC Oper,Y`: R150, R82. -/
  | adcAby (a : Word)
  /-- 61 `ADC (Oper,X)`: R150, R84. -/
  | adcIzx (b : Byte)
  /-- 71 `ADC (Oper),Y`: R150, R85. -/
  | adcIzy (b : Byte)
  /-- E9 `SBC #Oper`: R151, R76. -/
  | sbcImm (b : Byte)
  /-- E5 `SBC Oper`: R151, R77. -/
  | sbcZp (b : Byte)
  /-- F5 `SBC Oper,X`: R151, R78. -/
  | sbcZpx (b : Byte)
  /-- ED `SBC Oper`: R151, R80. -/
  | sbcAbs (a : Word)
  /-- FD `SBC Oper,X`: R151, R81. -/
  | sbcAbx (a : Word)
  /-- F9 `SBC Oper,Y`: R151, R82. -/
  | sbcAby (a : Word)
  /-- E1 `SBC (Oper,X)`: R151, R84. -/
  | sbcIzx (b : Byte)
  /-- F1 `SBC (Oper),Y`: R151, R85. -/
  | sbcIzy (b : Byte)
  /-- C9 `CMP #Oper`: R152, R76. -/
  | cmpImm (b : Byte)
  /-- C5 `CMP Oper`: R152, R77. -/
  | cmpZp (b : Byte)
  /-- D5 `CMP Oper,X`: R152, R78. -/
  | cmpZpx (b : Byte)
  /-- CD `CMP Oper`: R152, R80. -/
  | cmpAbs (a : Word)
  /-- DD `CMP Oper,X`: R152, R81. -/
  | cmpAbx (a : Word)
  /-- D9 `CMP Oper,Y`: R152, R82. -/
  | cmpAby (a : Word)
  /-- C1 `CMP (Oper,X)`: R152, R84. -/
  | cmpIzx (b : Byte)
  /-- D1 `CMP (Oper),Y`: R152, R85. -/
  | cmpIzy (b : Byte)
  /-- E0 `CPX #Oper`: R153, R76. -/
  | cpxImm (b : Byte)
  /-- E4 `CPX Oper`: R153, R77. -/
  | cpxZp (b : Byte)
  /-- EC `CPX Oper`: R153, R80. -/
  | cpxAbs (a : Word)
  /-- C0 `CPY #Oper`: R154, R76. -/
  | cpyImm (b : Byte)
  /-- C4 `CPY Oper`: R154, R77. -/
  | cpyZp (b : Byte)
  /-- CC `CPY Oper`: R154, R80. -/
  | cpyAbs (a : Word)
  -- 44_logic.md
  /-- 29 `AND #Oper`: R166, R76. -/
  | andImm (b : Byte)
  /-- 25 `AND Oper`: R166, R77. -/
  | andZp (b : Byte)
  /-- 35 `AND Oper,X`: R166, R78. -/
  | andZpx (b : Byte)
  /-- 2D `AND Oper`: R166, R80. -/
  | andAbs (a : Word)
  /-- 3D `AND Oper,X`: R166, R81. -/
  | andAbx (a : Word)
  /-- 39 `AND Oper,Y`: R166, R82. -/
  | andAby (a : Word)
  /-- 21 `AND (Oper,X)`: R166, R84. -/
  | andIzx (b : Byte)
  /-- 31 `AND (Oper),Y`: R166, R85. -/
  | andIzy (b : Byte)
  /-- 49 `EOR #Oper`: R167, R76. -/
  | eorImm (b : Byte)
  /-- 45 `EOR Oper`: R167, R77. -/
  | eorZp (b : Byte)
  /-- 55 `EOR Oper,X`: R167, R78. -/
  | eorZpx (b : Byte)
  /-- 4D `EOR Oper`: R167, R80. -/
  | eorAbs (a : Word)
  /-- 5D `EOR Oper,X`: R167, R81. -/
  | eorAbx (a : Word)
  /-- 59 `EOR Oper,Y`: R167, R82. -/
  | eorAby (a : Word)
  /-- 41 `EOR (Oper,X)`: R167, R84. -/
  | eorIzx (b : Byte)
  /-- 51 `EOR (Oper),Y`: R167, R85. -/
  | eorIzy (b : Byte)
  /-- 09 `ORA #Oper`: R168, R76. -/
  | oraImm (b : Byte)
  /-- 05 `ORA Oper`: R168, R77. -/
  | oraZp (b : Byte)
  /-- 15 `ORA Oper,X`: R168, R78. -/
  | oraZpx (b : Byte)
  /-- 0D `ORA Oper`: R168, R80. -/
  | oraAbs (a : Word)
  /-- 1D `ORA Oper,X`: R168, R81. -/
  | oraAbx (a : Word)
  /-- 19 `ORA Oper,Y`: R168, R82. -/
  | oraAby (a : Word)
  /-- 01 `ORA (Oper,X)`: R168, R84. -/
  | oraIzx (b : Byte)
  /-- 11 `ORA (Oper),Y`: R168, R85. -/
  | oraIzy (b : Byte)
  /-- 24 `BIT Oper`: R169, R77. -/
  | bitZp (b : Byte)
  /-- 2C `BIT Oper`: R169, R80. -/
  | bitAbs (a : Word)
  -- 45_shift_rotate.md
  /-- 0A `ASL A`: R176, R75. -/
  | aslAcc
  /-- 06 `ASL Oper`: R176, R77. -/
  | aslZp (b : Byte)
  /-- 16 `ASL Oper,X`: R176, R78. -/
  | aslZpx (b : Byte)
  /-- 0E `ASL Oper`: R176, R80. -/
  | aslAbs (a : Word)
  /-- 1E `ASL Oper,X`: R176, R81. -/
  | aslAbx (a : Word)
  /-- 4A `LSR A`: R177, R75. -/
  | lsrAcc
  /-- 46 `LSR Oper`: R177, R77. -/
  | lsrZp (b : Byte)
  /-- 56 `LSR Oper,X`: R177, R78. -/
  | lsrZpx (b : Byte)
  /-- 4E `LSR Oper`: R177, R80. -/
  | lsrAbs (a : Word)
  /-- 5E `LSR Oper,X`: R177, R81. -/
  | lsrAbx (a : Word)
  /-- 2A `ROL A`: R179, R75. -/
  | rolAcc
  /-- 26 `ROL Oper`: R179, R77. -/
  | rolZp (b : Byte)
  /-- 36 `ROL Oper,X`: R179, R78. -/
  | rolZpx (b : Byte)
  /-- 2E `ROL Oper`: R179, R80. -/
  | rolAbs (a : Word)
  /-- 3E `ROL Oper,X`: R179, R81. -/
  | rolAbx (a : Word)
  /-- 6A `ROR A`: R178, R75. -/
  | rorAcc
  /-- 66 `ROR Oper`: R178, R77. -/
  | rorZp (b : Byte)
  /-- 76 `ROR Oper,X`: R178, R78. -/
  | rorZpx (b : Byte)
  /-- 6E `ROR Oper`: R178, R80. -/
  | rorAbs (a : Word)
  /-- 7E `ROR Oper,X`: R178, R81. -/
  | rorAbx (a : Word)
  -- 46_inc_dec.md
  /-- E6 `INC Oper`: R186, R77. -/
  | incZp (b : Byte)
  /-- F6 `INC Oper,X`: R186, R78. -/
  | incZpx (b : Byte)
  /-- EE `INC Oper`: R186, R80. -/
  | incAbs (a : Word)
  /-- FE `INC Oper,X`: R186, R81. -/
  | incAbx (a : Word)
  /-- E8 `INX`: R187, R74. -/
  | inx
  /-- C8 `INY`: R188, R74. -/
  | iny
  /-- C6 `DEC Oper`: R189, R77. -/
  | decZp (b : Byte)
  /-- D6 `DEC Oper,X`: R189, R78. -/
  | decZpx (b : Byte)
  /-- CE `DEC Oper`: R189, R80. -/
  | decAbs (a : Word)
  /-- DE `DEC Oper,X`: R189, R81. -/
  | decAbx (a : Word)
  /-- CA `DEX`: R190, R74. -/
  | dex
  /-- 88 `DEY`: R191, R74. -/
  | dey
  -- 47_branch.md
  /-- 90 `BCC Oper`: R196, R86. -/
  | bcc (b : Byte)
  /-- B0 `BCS Oper`: R197, R86. -/
  | bcs (b : Byte)
  /-- F0 `BEQ Oper`: R198, R86. -/
  | beq (b : Byte)
  /-- 30 `BMI Oper`: R199, R86. -/
  | bmi (b : Byte)
  /-- D0 `BNE Oper`: R200, R86. -/
  | bne (b : Byte)
  /-- 10 `BPL Oper`: R201, R86. -/
  | bpl (b : Byte)
  /-- 50 `BVC Oper`: R202, R86. -/
  | bvc (b : Byte)
  /-- 70 `BVS Oper`: R203, R86. -/
  | bvs (b : Byte)
  -- 48_jump_subroutine.md
  /-- 4C `JMP Oper`: R212, R80. -/
  | jmpAbs (a : Word)
  /-- 6C `JMP (Oper)`: R212, R83. -/
  | jmpInd (a : Word)
  /-- 20 `JSR Oper`: R211, R80. -/
  | jsr (a : Word)
  /-- 60 `RTS`: R213, R74. -/
  | rts
  -- 49_flag_system.md
  /-- 18 `CLC`: R221, R74. -/
  | clc
  /-- D8 `CLD`: R222, R74. -/
  | cld
  /-- 58 `CLI`: R223, R74. -/
  | cli
  /-- B8 `CLV`: R224, R74. -/
  | clv
  /-- 38 `SEC`: R225, R74. -/
  | sec
  /-- F8 `SED`: R226, R74. -/
  | sed
  /-- 78 `SEI`: R230, R74. -/
  | sei
  /-- EA `NOP`: R227, R74. -/
  | nop
  /-- 00 `BRK`: R228, R74. -/
  | brk
  /-- 40 `RTI`: R229, R74. -/
  | rti
  -- 30_encoding.md R97
  /-- One of the opcodes listed "Future Expansion", with its byte: R97. -/
  | reserved (op : Byte)
  deriving DecidableEq, Repr

end Sys2Proof
end

