-- ==== Sys2Proof/Decode.lean ====
section
/-! DEFINITION. The decoder, the encoder and the byte-order helpers (30_encoding.md).

Decoding is a lookup of the whole opcode byte (R72, R96): `opcodeRow` is the 16 by 16 matrix of R95, row by row. A cell
says the format, and with it how many operand bytes follow (R70, R71). -/

namespace Sys2Proof

/-- Bits 15 to 8 of a word (R4). -/
def hiByte (w : Word) : Byte := w.extractLsb' 8 8

/-- Bits 7 to 0 of a word (R4). -/
def loByte (w : Word) : Byte := w.extractLsb' 0 8

/-- `hi ++ lo` (R4): the word with these two bytes. -/
def wordOf (hi lo : Byte) : Word := hi ++ lo

/-- One cell of the opcode matrix: the instruction's format (R70) and, from its operand, the instruction. -/
inductive Cell where
  /-- One byte. -/
  | f1 (i : Instr)
  /-- Two bytes: an operand byte follows. -/
  | f2 (mk : Byte → Instr)
  /-- Three bytes: the operand `addr16 = b2 ++ b1` follows, low byte first. -/
  | f3 (mk : Word → Instr)
  /-- Future Expansion (R97): no instruction and no length. -/
  | future

/-- A ROR opcode is reserved on a part without ROR (R98). -/
def rorCell (hasRor : Bool) (c : Cell) : Cell := if hasRor then c else .future

/-- The rows of the matrix of R95; `hi` is the high hexadecimal digit of the opcode. -/
def opcodeRow (hasRor : Bool) (hi : Nat) : List Cell :=
  match hi with
  | 0x0 =>
    [.f1 .brk, .f2 .oraIzx, .future, .future,
     .future, .f2 .oraZp, .f2 .aslZp, .future,
     .f1 .php, .f2 .oraImm, .f1 .aslAcc, .future,
     .future, .f3 .oraAbs, .f3 .aslAbs, .future]
  | 0x1 =>
    [.f2 .bpl, .f2 .oraIzy, .future, .future,
     .future, .f2 .oraZpx, .f2 .aslZpx, .future,
     .f1 .clc, .f3 .oraAby, .future, .future,
     .future, .f3 .oraAbx, .f3 .aslAbx, .future]
  | 0x2 =>
    [.f3 .jsr, .f2 .andIzx, .future, .future,
     .f2 .bitZp, .f2 .andZp, .f2 .rolZp, .future,
     .f1 .plp, .f2 .andImm, .f1 .rolAcc, .future,
     .f3 .bitAbs, .f3 .andAbs, .f3 .rolAbs, .future]
  | 0x3 =>
    [.f2 .bmi, .f2 .andIzy, .future, .future,
     .future, .f2 .andZpx, .f2 .rolZpx, .future,
     .f1 .sec, .f3 .andAby, .future, .future,
     .future, .f3 .andAbx, .f3 .rolAbx, .future]
  | 0x4 =>
    [.f1 .rti, .f2 .eorIzx, .future, .future,
     .future, .f2 .eorZp, .f2 .lsrZp, .future,
     .f1 .pha, .f2 .eorImm, .f1 .lsrAcc, .future,
     .f3 .jmpAbs, .f3 .eorAbs, .f3 .lsrAbs, .future]
  | 0x5 =>
    [.f2 .bvc, .f2 .eorIzy, .future, .future,
     .future, .f2 .eorZpx, .f2 .lsrZpx, .future,
     .f1 .cli, .f3 .eorAby, .future, .future,
     .future, .f3 .eorAbx, .f3 .lsrAbx, .future]
  | 0x6 =>
    [.f1 .rts, .f2 .adcIzx, .future, .future,
     .future, .f2 .adcZp, rorCell hasRor (.f2 .rorZp), .future,
     .f1 .pla, .f2 .adcImm, rorCell hasRor (.f1 .rorAcc), .future,
     .f3 .jmpInd, .f3 .adcAbs, rorCell hasRor (.f3 .rorAbs), .future]
  | 0x7 =>
    [.f2 .bvs, .f2 .adcIzy, .future, .future,
     .future, .f2 .adcZpx, rorCell hasRor (.f2 .rorZpx), .future,
     .f1 .sei, .f3 .adcAby, .future, .future,
     .future, .f3 .adcAbx, rorCell hasRor (.f3 .rorAbx), .future]
  | 0x8 =>
    [.future, .f2 .staIzx, .future, .future,
     .f2 .styZp, .f2 .staZp, .f2 .stxZp, .future,
     .f1 .dey, .future, .f1 .txa, .future,
     .f3 .styAbs, .f3 .staAbs, .f3 .stxAbs, .future]
  | 0x9 =>
    [.f2 .bcc, .f2 .staIzy, .future, .future,
     .f2 .styZpx, .f2 .staZpx, .f2 .stxZpy, .future,
     .f1 .tya, .f3 .staAby, .f1 .txs, .future,
     .future, .f3 .staAbx, .future, .future]
  | 0xA =>
    [.f2 .ldyImm, .f2 .ldaIzx, .f2 .ldxImm, .future,
     .f2 .ldyZp, .f2 .ldaZp, .f2 .ldxZp, .future,
     .f1 .tay, .f2 .ldaImm, .f1 .tax, .future,
     .f3 .ldyAbs, .f3 .ldaAbs, .f3 .ldxAbs, .future]
  | 0xB =>
    [.f2 .bcs, .f2 .ldaIzy, .future, .future,
     .f2 .ldyZpx, .f2 .ldaZpx, .f2 .ldxZpy, .future,
     .f1 .clv, .f3 .ldaAby, .f1 .tsx, .future,
     .f3 .ldyAbx, .f3 .ldaAbx, .f3 .ldxAby, .future]
  | 0xC =>
    [.f2 .cpyImm, .f2 .cmpIzx, .future, .future,
     .f2 .cpyZp, .f2 .cmpZp, .f2 .decZp, .future,
     .f1 .iny, .f2 .cmpImm, .f1 .dex, .future,
     .f3 .cpyAbs, .f3 .cmpAbs, .f3 .decAbs, .future]
  | 0xD =>
    [.f2 .bne, .f2 .cmpIzy, .future, .future,
     .future, .f2 .cmpZpx, .f2 .decZpx, .future,
     .f1 .cld, .f3 .cmpAby, .future, .future,
     .future, .f3 .cmpAbx, .f3 .decAbx, .future]
  | 0xE =>
    [.f2 .cpxImm, .f2 .sbcIzx, .future, .future,
     .f2 .cpxZp, .f2 .sbcZp, .f2 .incZp, .future,
     .f1 .inx, .f2 .sbcImm, .f1 .nop, .future,
     .f3 .cpxAbs, .f3 .sbcAbs, .f3 .incAbs, .future]
  | 0xF =>
    [.f2 .beq, .f2 .sbcIzy, .future, .future,
     .future, .f2 .sbcZpx, .f2 .incZpx, .future,
     .f1 .sed, .f3 .sbcAby, .future, .future,
     .future, .f3 .sbcAbx, .f3 .incAbx, .future]
  | _ => []

/-- The cell of an opcode byte. -/
def cellOf (hasRor : Bool) (op : Byte) : Cell :=
  (opcodeRow hasRor (op.toNat / 16)).getD (op.toNat % 16) .future

/-- How many bytes the instruction with this opcode has (R71); a reserved opcode has no length (R97). -/
def instrLength (hasRor : Bool) (op : Byte) : Option Nat :=
  match cellOf hasRor op with
  | .f1 _ => some 1
  | .f2 _ => some 2
  | .f3 _ => some 3
  | .future => none

/-- Why a list of bytes is no instruction. -/
inductive DecodeError where
  /-- There is no opcode byte. -/
  | noBytes
  /-- The opcode's operand bytes are missing. -/
  | truncated (op : Byte)
  deriving DecidableEq, Repr

/-- The instruction at the head of a list of bytes, and the bytes after it. Total: a reserved opcode gives `reserved`
with its byte, of which only the opcode byte is read (R97, U1). -/
def decode (hasRor : Bool) (bytes : List Byte) : Except DecodeError (Instr × List Byte) :=
  match bytes with
  | [] => .error .noBytes
  | op :: rest =>
    match cellOf hasRor op with
    | .f1 i => .ok (i, rest)
    | .f2 mk =>
      match rest with
      | b1 :: rest => .ok (mk b1, rest)
      | [] => .error (.truncated op)
    | .f3 mk =>
      match rest with
      | b1 :: b2 :: rest => .ok (mk (wordOf b2 b1), rest)
      | _ => .error (.truncated op)
    | .future => .ok (.reserved op, rest)

/-- The bytes of opcode_table.json's number for an instruction: bit 0 is the least significant bit of the first byte,
and every bit above `nbits` is 0; as many bytes as the longest instruction has. -/
def tableBytes (nbits w : Nat) : List Byte :=
  let v := w % 2 ^ nbits
  [BitVec.ofNat 8 v, BitVec.ofNat 8 (v / 256), BitVec.ofNat 8 (v / 65536)]

/-- The instruction the decoder reads from an instruction whose bits are `w`, on the part the spec covers
(`HAS_ROR = true`, R1). -/
def decodeTableWord (nbits w : Nat) : Option Instr :=
  match decode true (tableBytes nbits w) with
  | .ok (i, _) => some i
  | .error _ => none

/-! The encoder, written from the instruction rules' own tables. -/

/-- Format F1 (R70). -/
def bytes1 (op : Byte) : List Byte := [op]

/-- Format F2 (R70). -/
def bytes2 (op b : Byte) : List Byte := [op, b]

/-- Format F3 (R70): address bits 7 to 0 in the first operand byte, bits 15 to 8 in the second. -/
def bytes3 (op : Byte) (a : Word) : List Byte := [op, loByte a, hiByte a]

/-- The bytes of an instruction. -/
def encode (i : Instr) : List Byte :=
  match i with
  -- 40_load_store.md
  | .ldaImm b => bytes2 0xA9 b
  | .ldaZp b => bytes2 0xA5 b
  | .ldaZpx b => bytes2 0xB5 b
  | .ldaAbs a => bytes3 0xAD a
  | .ldaAbx a => bytes3 0xBD a
  | .ldaAby a => bytes3 0xB9 a
  | .ldaIzx b => bytes2 0xA1 b
  | .ldaIzy b => bytes2 0xB1 b
  | .ldxImm b => bytes2 0xA2 b
  | .ldxZp b => bytes2 0xA6 b
  | .ldxZpy b => bytes2 0xB6 b
  | .ldxAbs a => bytes3 0xAE a
  | .ldxAby a => bytes3 0xBE a
  | .ldyImm b => bytes2 0xA0 b
  | .ldyZp b => bytes2 0xA4 b
  | .ldyZpx b => bytes2 0xB4 b
  | .ldyAbs a => bytes3 0xAC a
  | .ldyAbx a => bytes3 0xBC a
  | .staZp b => bytes2 0x85 b
  | .staZpx b => bytes2 0x95 b
  | .staAbs a => bytes3 0x8D a
  | .staAbx a => bytes3 0x9D a
  | .staAby a => bytes3 0x99 a
  | .staIzx b => bytes2 0x81 b
  | .staIzy b => bytes2 0x91 b
  | .stxZp b => bytes2 0x86 b
  | .stxZpy b => bytes2 0x96 b
  | .stxAbs a => bytes3 0x8E a
  | .styZp b => bytes2 0x84 b
  | .styZpx b => bytes2 0x94 b
  | .styAbs a => bytes3 0x8C a
  -- 41_transfer.md
  | .tax => bytes1 0xAA
  | .tay => bytes1 0xA8
  | .tsx => bytes1 0xBA
  | .txa => bytes1 0x8A
  | .txs => bytes1 0x9A
  | .tya => bytes1 0x98
  -- 42_stack.md
  | .pha => bytes1 0x48
  | .php => bytes1 0x08
  | .pla => bytes1 0x68
  | .plp => bytes1 0x28
  -- 43_arithmetic.md
  | .adcImm b => bytes2 0x69 b
  | .adcZp b => bytes2 0x65 b
  | .adcZpx b => bytes2 0x75 b
  | .adcAbs a => bytes3 0x6D a
  | .adcAbx a => bytes3 0x7D a
  | .adcAby a => bytes3 0x79 a
  | .adcIzx b => bytes2 0x61 b
  | .adcIzy b => bytes2 0x71 b
  | .sbcImm b => bytes2 0xE9 b
  | .sbcZp b => bytes2 0xE5 b
  | .sbcZpx b => bytes2 0xF5 b
  | .sbcAbs a => bytes3 0xED a
  | .sbcAbx a => bytes3 0xFD a
  | .sbcAby a => bytes3 0xF9 a
  | .sbcIzx b => bytes2 0xE1 b
  | .sbcIzy b => bytes2 0xF1 b
  | .cmpImm b => bytes2 0xC9 b
  | .cmpZp b => bytes2 0xC5 b
  | .cmpZpx b => bytes2 0xD5 b
  | .cmpAbs a => bytes3 0xCD a
  | .cmpAbx a => bytes3 0xDD a
  | .cmpAby a => bytes3 0xD9 a
  | .cmpIzx b => bytes2 0xC1 b
  | .cmpIzy b => bytes2 0xD1 b
  | .cpxImm b => bytes2 0xE0 b
  | .cpxZp b => bytes2 0xE4 b
  | .cpxAbs a => bytes3 0xEC a
  | .cpyImm b => bytes2 0xC0 b
  | .cpyZp b => bytes2 0xC4 b
  | .cpyAbs a => bytes3 0xCC a
  -- 44_logic.md
  | .andImm b => bytes2 0x29 b
  | .andZp b => bytes2 0x25 b
  | .andZpx b => bytes2 0x35 b
  | .andAbs a => bytes3 0x2D a
  | .andAbx a => bytes3 0x3D a
  | .andAby a => bytes3 0x39 a
  | .andIzx b => bytes2 0x21 b
  | .andIzy b => bytes2 0x31 b
  | .eorImm b => bytes2 0x49 b
  | .eorZp b => bytes2 0x45 b
  | .eorZpx b => bytes2 0x55 b
  | .eorAbs a => bytes3 0x4D a
  | .eorAbx a => bytes3 0x5D a
  | .eorAby a => bytes3 0x59 a
  | .eorIzx b => bytes2 0x41 b
  | .eorIzy b => bytes2 0x51 b
  | .oraImm b => bytes2 0x09 b
  | .oraZp b => bytes2 0x05 b
  | .oraZpx b => bytes2 0x15 b
  | .oraAbs a => bytes3 0x0D a
  | .oraAbx a => bytes3 0x1D a
  | .oraAby a => bytes3 0x19 a
  | .oraIzx b => bytes2 0x01 b
  | .oraIzy b => bytes2 0x11 b
  | .bitZp b => bytes2 0x24 b
  | .bitAbs a => bytes3 0x2C a
  -- 45_shift_rotate.md
  | .aslAcc => bytes1 0x0A
  | .aslZp b => bytes2 0x06 b
  | .aslZpx b => bytes2 0x16 b
  | .aslAbs a => bytes3 0x0E a
  | .aslAbx a => bytes3 0x1E a
  | .lsrAcc => bytes1 0x4A
  | .lsrZp b => bytes2 0x46 b
  | .lsrZpx b => bytes2 0x56 b
  | .lsrAbs a => bytes3 0x4E a
  | .lsrAbx a => bytes3 0x5E a
  | .rolAcc => bytes1 0x2A
  | .rolZp b => bytes2 0x26 b
  | .rolZpx b => bytes2 0x36 b
  | .rolAbs a => bytes3 0x2E a
  | .rolAbx a => bytes3 0x3E a
  | .rorAcc => bytes1 0x6A
  | .rorZp b => bytes2 0x66 b
  | .rorZpx b => bytes2 0x76 b
  | .rorAbs a => bytes3 0x6E a
  | .rorAbx a => bytes3 0x7E a
  -- 46_inc_dec.md
  | .incZp b => bytes2 0xE6 b
  | .incZpx b => bytes2 0xF6 b
  | .incAbs a => bytes3 0xEE a
  | .incAbx a => bytes3 0xFE a
  | .inx => bytes1 0xE8
  | .iny => bytes1 0xC8
  | .decZp b => bytes2 0xC6 b
  | .decZpx b => bytes2 0xD6 b
  | .decAbs a => bytes3 0xCE a
  | .decAbx a => bytes3 0xDE a
  | .dex => bytes1 0xCA
  | .dey => bytes1 0x88
  -- 47_branch.md
  | .bcc b => bytes2 0x90 b
  | .bcs b => bytes2 0xB0 b
  | .beq b => bytes2 0xF0 b
  | .bmi b => bytes2 0x30 b
  | .bne b => bytes2 0xD0 b
  | .bpl b => bytes2 0x10 b
  | .bvc b => bytes2 0x50 b
  | .bvs b => bytes2 0x70 b
  -- 48_jump_subroutine.md
  | .jmpAbs a => bytes3 0x4C a
  | .jmpInd a => bytes3 0x6C a
  | .jsr a => bytes3 0x20 a
  | .rts => bytes1 0x60
  -- 49_flag_system.md
  | .clc => bytes1 0x18
  | .cld => bytes1 0xD8
  | .cli => bytes1 0x58
  | .clv => bytes1 0xB8
  | .sec => bytes1 0x38
  | .sed => bytes1 0xF8
  | .sei => bytes1 0x78
  | .nop => bytes1 0xEA
  | .brk => bytes1 0x00
  | .rti => bytes1 0x40
  -- R97
  | .reserved op => bytes1 op

end Sys2Proof
end

