-- ==== Sys2Proof/Config.lean ====
section
/-! DEFINITION. What an implementation or its platform fixes, and the free values.

The parameters of spec/00_scope.md R3 are a structure, `Params`. The spec's `OPEN` "means the model takes the
parameter as an argument": the machine's argument is its state, so the state carries a `Params` that no step
changes (notes/assumptions/3.md). Every value the spec names for a parameter is a constructor here. -/

namespace Sys2Proof

/-- `REL_OFFSET_ENCODING` (R3, R86, D5, C20). -/
inductive RelOffsetEncoding where
  /-- The spec's rule: the displacement is a two's complement byte. -/
  | twosComplement
  /-- The named alternative: bits 0 to 6 are the magnitude, bit 7 the sign. -/
  | signMagnitude
  deriving DecidableEq, Repr

/-- `JMP_IND_PAGE_WRAP` (R3, R83, D6): where `JMP (Oper)` finds the high byte of its target when the pointer's
low byte is `0xFF`. -/
inductive JmpIndPageWrap where
  /-- No choice has been made: R83 refuses the case. -/
  | unset
  /-- `true`: the first byte of the pointer's own page. -/
  | samePage
  /-- `false`: the byte after the pointer, in the next page. -/
  | nextPage
  deriving DecidableEq, Repr

/-- `B_FLAG_MODEL` (R3, R27, D10). -/
inductive BFlagModel where
  /-- The source's reading: B is a stored bit. -/
  | latched
  /-- The alternative: B exists only in a pushed byte. -/
  | pushOnly
  deriving DecidableEq, Repr

/-- The values of `DECIMAL_NVZ` and `DECIMAL_INVALID_BCD` (R3, R157, D11). -/
inductive DecimalModel where
  /-- The value the formulas of R150 and R151 give. -/
  | formula
  /-- A free value. -/
  | draw
  deriving DecidableEq, Repr

/-- What stands at an address of the platform's `MEMORY_MAP` (R50, R59, D14). -/
inductive MapKind where
  | ram
  | rom
  | unmapped
  deriving DecidableEq, Repr

/-- One entry of `MEMORY_MAP`: the addresses `first` to `last`, both included. -/
structure MapRegion where
  first : Word
  last : Word
  kind : MapKind
  deriving DecidableEq, Repr

/-- One entry of `IO_REGIONS` (R50, D13): the addresses `first` to `last`, both included, of a device for which
the platform supplies no model. -/
structure IoRegion where
  first : Word
  last : Word
  deriving DecidableEq, Repr

/-- The parameters of R3 that the machine's behaviour depends on. -/
structure Params where
  relOffset : RelOffsetEncoding
  jmpIndPageWrap : JmpIndPageWrap
  hasRor : Bool
  bFlagModel : BFlagModel
  decimalNvz : DecimalModel
  decimalInvalidBcd : DecimalModel
  memoryMap : List MapRegion
  ioRegions : List IoRegion
  deriving DecidableEq, Repr

/-- The value R3 and the table of 92_eei_decisions.md give every parameter: the default of each. -/
def Params.standard : Params where
  relOffset := .twosComplement
  jmpIndPageWrap := .unset
  hasRor := true
  bFlagModel := .latched
  decimalNvz := .formula
  decimalInvalidBcd := .formula
  memoryMap := []
  ioRegions := []

/-- `STACK_PAGE` (R3, R45, D4): the high byte of every stack address. -/
def Config.stackPage : Byte := 0x01

/-- `VEC_NMI` (R3, R40, D15). -/
def Config.vecNmi : Word := 0xFFFA

/-- `VEC_RESET` (R3, R40, D15). -/
def Config.vecReset : Word := 0xFFFC

/-- `VEC_BRK_IRQ` (R3, R40, R248, D15). -/
def Config.vecBrkIrq : Word := 0xFFFE

/-- What an address that the memory does not list reads as. DESIGN CHOICE, unsafe (notes/assumptions/2.md): the
spec leaves memory at power-on unspecified (R59, D23). -/
def Config.unlistedByte : Byte := 0x00

/-- Free bytes (the spec's "draw"): the value of the n-th one. It has no body, so no proof can see it
(notes/assumptions/6.md). -/
opaque Config.freeByte : Nat → BitVec 8

/-- Free bits (the spec's "draw"): the value of the n-th one. It has no body (notes/assumptions/6.md). -/
opaque Config.freeBit : Nat → Bool

end Sys2Proof
end

