-- ==== Sys2Proof/Machine/State.lean ====
section
/-! DEFINITION. The machine's state (10_state.md), what it is at reset, and the reasons a step can stop.

State is plain data. It holds every piece of state of R10, R31 and R32, the parameters of 00_scope.md R3 (which no step
changes), and one counter of the model's own, `draws`. -/

namespace Sys2Proof.Machine

/-- The seven flags of the status register P (R17 to R29). Bit 5 is not state (R18). -/
structure Status where
  /-- Sign, bit 7 (R29). -/
  n : Bool
  /-- Overflow, bit 6 (R28). -/
  v : Bool
  /-- Break, bit 4 (R27). Under `push_only` no rule reads or writes it. -/
  b : Bool
  /-- Decimal mode, bit 3 (R26). -/
  d : Bool
  /-- Interrupt disable, bit 2 (R25). -/
  i : Bool
  /-- Zero, bit 1 (R21). -/
  z : Bool
  /-- Carry, bit 0 (R20). -/
  c : Bool
  deriving DecidableEq, Repr

/-- Memory (R31, R40): cells with strictly rising addresses below 65536, none of which holds the byte that an unlisted
address reads as. -/
abbrev Memory := List Host.Cell

/-- The canonical form of a memory. -/
abbrev Memory.wf (m : Memory) : Prop :=
  m.Pairwise (fun p q => p.1 < q.1) ∧ ∀ p ∈ m, p.1 < 65536 ∧ p.2 ≠ Config.unlistedByte

/-- What the platform drives at one instruction boundary (`INTERRUPT_SOURCES`, R250). -/
structure InputSample where
  /-- The level of the reset input. -/
  reset : Bool
  /-- The level of the maskable request (R247). -/
  irq : Bool
  /-- Has the non-maskable input gone from inactive to active since the last boundary (R249)? -/
  nmiEdge : Bool
  deriving DecidableEq, Repr

/-- The whole state of the machine. -/
structure State where
  /-- A, the accumulator (R11). -/
  a : Byte
  /-- X, index register (R12). -/
  x : Byte
  /-- Y, index register (R13). -/
  y : Byte
  /-- SP, the stack pointer (R16). -/
  sp : Byte
  /-- PC, the program counter (R14). -/
  pc : Word
  /-- P, the status register (R17). -/
  p : Status
  /-- The 64 KiB address space (R31). -/
  mem : Memory
  /-- The level of the maskable request as last driven (R32, R247). -/
  irq : Bool
  /-- An edge of the non-maskable input that has not been served (R32, R249). -/
  nmiPending : Bool
  /-- The level of the reset input as last driven (R32, R250). -/
  resetLine : Bool
  /-- What the platform drives at the coming boundaries, the next one first (R250, notes/assumptions/5.md). Where the
  list has ended the levels stay as they are. -/
  inputs : List InputSample
  /-- The MODEL's own: how many free values have been handed out (notes/assumptions/6.md). -/
  draws : Nat
  /-- The parameters of R3, which no step changes (notes/assumptions/3.md). -/
  par : Params
  deriving DecidableEq, Repr

/-- The events other than an instruction that a step can serve (R240, R250). -/
inductive HardwareEvent where
  | reset
  | nmi
  | irq
  deriving DecidableEq, Repr

/-- The `kind` of `Interrupt(kind)` (R245). -/
inductive InterruptKind where
  | brk
  | irq
  | nmi
  deriving DecidableEq, Repr

/-- Faults of the hardware. There is none: "There are no synchronous faults" (R241), so this type has no constructor and
no step ends in a fault. -/
inductive Fault where
  deriving DecidableEq, Repr

/-- The stops of the model, which R243 collects. None is an event of the hardware and none changes the state. -/
inductive Refusal where
  /-- An arm of `exec` without a meaning. No arm raises it. Safe. -/
  | notModelled (mnemonic : String)
  /-- Raised by `reserved`: the opcode is "Future Expansion" (R97, R242, D7). Safe: the spec gives it no effect. -/
  | reservedOpcode (op : Byte)
  /-- Raised by `JMP (Oper)` with the pointer at the end of a page while `JMP_IND_PAGE_WRAP` is unset (R83, D6). Safe. -/
  | jmpIndirectPageEnd (pointer : Word)
  /-- Raised by a JSR that would write a return address over its own last byte (R211, D24). Safe. -/
  | jsrOverwritesOperand (address : Word)
  /-- Raised by an access to an address of `IO_REGIONS`, a device with no device model (R50, R243, D13). Safe. -/
  | ioRegion (address : Word)
  deriving DecidableEq, Repr

/-- The flags of the reset state: I is 1 (R33); the others, which R33 leaves unspecified, are 0
(notes/assumptions/1.md). -/
def Status.atReset : Status where
  n := false
  v := false
  b := false
  d := false
  i := true
  z := false
  c := false

/-- The machine right after reset (R33): `P.I = 1`, `nmi_pending = false`, no request asserted, nothing listed in memory,
and `PC` the word stored at `0xFFFC`, which in this memory is 0. The registers R33 leaves unspecified are 0
(DESIGN CHOICE, unsafe, notes/assumptions/1.md). -/
def State.reset : State where
  a := 0
  x := 0
  y := 0
  sp := 0
  pc := 0
  p := Status.atReset
  mem := []
  irq := false
  nmiPending := false
  resetLine := false
  inputs := []
  draws := 0
  par := Params.standard

end Sys2Proof.Machine
end

