-- ==== Sys2Proof/Machine/Flags.lean ====
section
/-! DEFINITION. Every flag computation of the spec: the status byte (10_state.md R22 to R24), the adder and subtracter in
binary and decimal mode (43_arithmetic.md R150, R151), comparison (R152), the shifts and rotates (45_shift_rotate.md). The
arithmetic is on `Nat` and `Int`, as the rules have it (R4), and narrowed where they narrow it. -/

namespace Sys2Proof.Machine

/-- `GetP()` (R22): the status byte, with bit 5 always 1 (R18). -/
def Status.toByte (p : Status) : Byte :=
  BitVec.ofBool p.n ++ BitVec.ofBool p.v ++ 1#1 ++ BitVec.ofBool p.b ++
    BitVec.ofBool p.d ++ BitVec.ofBool p.i ++ BitVec.ofBool p.z ++ BitVec.ofBool p.c

/-- `SetP(v)` (R23): the flags from a byte, whose bit 5 is ignored (R18). Under `push_only` B is left as it is (R27). -/
def Status.ofByte (model : BFlagModel) (old : Status) (v : Byte) : Status where
  n := v.getLsbD 7
  v := v.getLsbD 6
  b := match model with
    | .latched => v.getLsbD 4
    | .pushOnly => old.b
  d := v.getLsbD 3
  i := v.getLsbD 2
  z := v.getLsbD 1
  c := v.getLsbD 0

/-- The byte PHP pushes (R142): `GetP()`, in which bit 4 is the stored B under `latched` and 1 under `push_only` (R27). -/
def Status.pushedByPhp (model : BFlagModel) (p : Status) : Byte :=
  match model with
  | .latched => p.toByte
  | .pushOnly => p.toByte ||| 0x10

/-- The byte an interrupt entry pushes (R245): bit 4 is 1 for BRK and 0 for a hardware interrupt, under both readings of
B. -/
def Status.pushedByInterrupt (kind : InterruptKind) (p : Status) : Byte :=
  match kind with
  | .brk => p.toByte ||| 0x10
  | .irq | .nmi => p.toByte &&& 0xEF

/-- `SetNZ(v)` (R24). -/
def Status.setNZ (p : Status) (v : Byte) : Status :=
  { p with n := v.msb, z := v == 0 }

/-- What the adder and the subtracter give: the byte for A and the four flags they write. -/
structure AluResult where
  value : Byte
  n : Bool
  v : Bool
  z : Bool
  c : Bool
  deriving DecidableEq, Repr

/-- The flags after ADC or SBC: N, V, Z, C from the result, the others kept (R150, R151). -/
def Status.setAlu (p : Status) (r : AluResult) : Status :=
  { p with n := r.n, v := r.v, z := r.z, c := r.c }

/-- ADC with D = 0 (R150). -/
def adcBinary (a m : Byte) (c : Bool) : AluResult :=
  let t := a.toNat + m.toNat + c.toNat
  { value := BitVec.ofNat 8 t
    n := t.testBit 7
    v := !(a ^^^ m).msb && (a ^^^ BitVec.ofNat 8 t).msb
    z := t % 256 == 0
    c := decide (t > 0xFF) }

/-- ADC with D = 1 (R150): Z from the binary sum, N and V after the correction of the low digit, C and A after that of
the high digit. -/
def adcDecimal (a m : Byte) (c : Bool) : AluResult :=
  let t := a.toNat + m.toNat + c.toNat
  let low := if a.toNat % 16 + m.toNat % 16 + c.toNat > 9 then t + 6 else t
  let high := if low > 0x99 then low + 0x60 else low
  { value := BitVec.ofNat 8 high
    n := low.testBit 7
    v := !(a ^^^ m).msb && (a ^^^ BitVec.ofNat 8 low).msb
    z := t % 256 == 0
    c := decide (high > 0x99) }

/-- SBC with D = 0 (R151). -/
def sbcBinary (a m : Byte) (c : Bool) : AluResult :=
  let t : Int := a.toNat - m.toNat - (1 - c.toNat : Int)
  let r := BitVec.ofInt 8 t
  { value := r
    n := r.msb
    v := (a ^^^ r).msb && (a ^^^ m).msb
    z := t % 256 == 0
    c := decide (0 ≤ t ∧ t < 0x100) }

/-- SBC with D = 1 (R151): N, Z and V from the binary difference, C and A after the two corrections. The comparison of the
low digits is signed (R9, C23). -/
def sbcDecimal (a m : Byte) (c : Bool) : AluResult :=
  let b : Int := 1 - c.toNat
  let t : Int := a.toNat - m.toNat - b
  let r := BitVec.ofInt 8 t
  let low := if (a.toNat % 16 : Int) - b < (m.toNat % 16 : Int) then t - 6 else t
  let high := if low < 0 ∨ low > 0x99 then low - 0x60 else low
  { value := BitVec.ofInt 8 high
    n := r.msb
    v := (a ^^^ r).msb && (a ^^^ m).msb
    z := t % 256 == 0
    c := decide (0 ≤ high ∧ high < 0x100) }

/-- The flags of CMP, CPX and CPY (R152): C when the register is at least the operand, N and Z of the 8-bit difference. -/
def Status.setCompare (p : Status) (r m : Byte) : Status :=
  { p.setNZ (r - m) with c := decide (m.toNat ≤ r.toNat) }

/-- The flags of BIT (R169): N and V from the memory byte, Z from the AND. -/
def Status.setBitTest (p : Status) (a m : Byte) : Status :=
  { p with n := m.getLsbD 7, v := m.getLsbD 6, z := (a &&& m) == 0 }

/-- A nibble of the byte is above 9: it is not valid BCD (R157). -/
def invalidBcd (b : Byte) : Bool :=
  decide (b.toNat % 16 > 9) || decide (b.toNat / 16 > 9)

/-- ASL (R176): the result and the bit that leaves. -/
def aslByte (m : Byte) (_ : Bool) : Byte × Bool := (m <<< 1, m.getLsbD 7)

/-- LSR (R177). -/
def lsrByte (m : Byte) (_ : Bool) : Byte × Bool := (m >>> 1, m.getLsbD 0)

/-- ROL (R179): the old carry enters at bit 0. -/
def rolByte (m : Byte) (c : Bool) : Byte × Bool :=
  ((m <<< 1) ||| (BitVec.ofBool c).zeroExtend 8, m.getLsbD 7)

/-- ROR (R178): the old carry enters at bit 7. -/
def rorByte (m : Byte) (c : Bool) : Byte × Bool :=
  ((m >>> 1) ||| ((BitVec.ofBool c).zeroExtend 8 <<< 7), m.getLsbD 0)

/-- The flags after a shift or rotate (R175): N and Z of the result, C the bit that left. -/
def Status.setShift (p : Status) (r : Byte × Bool) : Status :=
  { p.setNZ r.1 with c := r.2 }

end Sys2Proof.Machine
end

