-- ==== Sys2Proof/Machine/Ops.lean ====
section
/-! DEFINITION. The named operations over registers, memory and the stack (20_memory.md R41 to R47), the free values, taking
an interrupt (60_exceptions.md R245), returning from one (49_flag_system.md R229) and the reset event
(70_reset_and_hazards.md R281). An operation answers the next state or the model's refusal (R243). -/

namespace Sys2Proof.Machine

/-! Registers. -/

def State.setA (s : State) (v : Byte) : State := { s with a := v }
def State.setX (s : State) (v : Byte) : State := { s with x := v }
def State.setY (s : State) (v : Byte) : State := { s with y := v }
def State.setSp (s : State) (v : Byte) : State := { s with sp := v }
def State.setPc (s : State) (v : Word) : State := { s with pc := v }
def State.setP (s : State) (v : Status) : State := { s with p := v }
def State.setMem (s : State) (m : Memory) : State := { s with mem := m }
def State.setDraws (s : State) (n : Nat) : State := { s with draws := n }

/-! Memory as data. -/

/-- The byte at an address: that of its cell, or what an unlisted address reads as. -/
def Memory.read (m : Memory) (a : Nat) : Byte :=
  match m with
  | [] => Config.unlistedByte
  | (k, v) :: rest => if a = k then v else Memory.read rest a

/-- A cell put before the first cell with a higher address. -/
def Memory.insert (m : Memory) (a : Nat) (v : Byte) : Memory :=
  match m with
  | [] => [(a, v)]
  | (k, w) :: rest => if a < k then (a, v) :: (k, w) :: rest else (k, w) :: Memory.insert rest a v

/-- The memory with a byte stored. The canonical form is kept: the old cell goes, and a byte equal to what an unlisted
address reads as is not listed. -/
def Memory.write (m : Memory) (a : Nat) (v : Byte) : Memory :=
  let others := m.filter (fun p => p.1 != a)
  if v = Config.unlistedByte then others else Memory.insert others a v

/-! The platform's memory map. -/

/-- Is the address in a device region (R50)? -/
def State.isIo (s : State) (a : Word) : Bool :=
  s.par.ioRegions.any (fun r => decide (r.first ≤ a) && decide (a ≤ r.last))

/-- What `MEMORY_MAP` has at an address: its first entry that covers it, and RAM where none does (R3, R50). -/
def State.kindAt (s : State) (a : Word) : MapKind :=
  match s.par.memoryMap.find? (fun r => decide (r.first ≤ a) && decide (a ≤ r.last)) with
  | some r => r.kind
  | none => .ram

/-! Free values. -/

/-- The next free byte. -/
def State.drawByte (s : State) : Byte × State :=
  (Config.freeByte s.draws, s.setDraws (s.draws + 1))

/-! Accesses (R41). -/

/-- `MemRead(a, 1)` (R41). An unmapped address reads as a free value, a new one at every read (R59, U9). A device region
without a device model refuses (R50). -/
def readByte (a : Word) (s : State) : Except Refusal (Byte × State) :=
  if s.isIo a then .error (.ioRegion a)
  else match s.kindAt a with
    | .ram | .rom => .ok (s.mem.read a.toNat, s)
    | .unmapped => .ok s.drawByte

/-- `MemWrite(a, 1, v)` (R41). A write to ROM or to an unmapped address is dropped (R59, U9). -/
def writeByte (a : Word) (v : Byte) (s : State) : Except Refusal State :=
  if s.isIo a then .error (.ioRegion a)
  else match s.kindAt a with
    | .ram => .ok (s.setMem (s.mem.write a.toNat v))
    | .rom | .unmapped => .ok s

/-- `Read16(a)` (R43): low byte first, high byte at the next address modulo 65536. -/
def read16 (a : Word) (s : State) : Except Refusal (Word × State) := do
  let (lo, s) ← readByte a s
  let (hi, s) ← readByte (a + 1) s
  pure (wordOf hi lo, s)

/-- The zero-page address of a byte (R77). -/
def zeroPage (z : Byte) : Word := wordOf 0 z

/-- `Read16zp(z)` (R44): both bytes come from the zero page. -/
def read16zp (z : Byte) (s : State) : Except Refusal (Word × State) := do
  let (lo, s) ← readByte (zeroPage z) s
  let (hi, s) ← readByte (zeroPage (z + 1)) s
  pure (wordOf hi lo, s)

/-! The stack (R45 to R47). -/

/-- The stack address a stack pointer designates (R45). -/
def stackAddress (sp : Byte) : Word := wordOf Config.stackPage sp

/-- `Push(v)` (R46): write, then SP down by one modulo 256. -/
def push (v : Byte) (s : State) : Except Refusal State := do
  let s ← writeByte (stackAddress s.sp) v s
  pure (s.setSp (s.sp - 1))

/-- `Pull()` (R47): SP up by one modulo 256, then read. -/
def pull (s : State) : Except Refusal (Byte × State) :=
  readByte (stackAddress (s.sp + 1)) (s.setSp (s.sp + 1))

/-! Exceptions. -/

/-- Where the entry finds the handler's address (R240, R245). -/
def InterruptKind.vector (kind : InterruptKind) : Word :=
  match kind with
  | .brk | .irq => Config.vecBrkIrq
  | .nmi => Config.vecNmi

/-- The return address the entry saves (R245): for BRK two past its opcode, else the address of the next instruction. -/
def InterruptKind.returnAddress (kind : InterruptKind) (pc : Word) : Word :=
  match kind with
  | .brk => pc + 2
  | .irq | .nmi => pc

/-- P as the entry pushes it (R245): BRK sets B first under `latched`; a hardware interrupt leaves B alone (C28). -/
def InterruptKind.markB (kind : InterruptKind) (model : BFlagModel) (p : Status) : Status :=
  match kind, model with
  | .brk, .latched => { p with b := true }
  | .brk, .pushOnly => p
  | .irq, _ => p
  | .nmi, _ => p

/-- `Interrupt(kind)` (R245): push PC high, PC low and P, set I, and go to the address the vector holds. -/
def takeInterrupt (kind : InterruptKind) (s : State) : Except Refusal State := do
  let ret := kind.returnAddress s.pc
  let s ← push (hiByte ret) s
  let s ← push (loByte ret) s
  let s := s.setP (kind.markB s.par.bFlagModel s.p)
  let s ← push (s.p.pushedByInterrupt kind) s
  let s := s.setP { s.p with i := true }
  let (target, s) ← read16 kind.vector s
  pure (s.setPc target)

/-- The return from an interrupt (R229, R252): pull P, PC low, PC high, and continue there. -/
def returnFromInterrupt (s : State) : Except Refusal State := do
  let (v, s) ← pull s
  let s := s.setP (Status.ofByte s.par.bFlagModel s.p v)
  let (lo, s) ← pull s
  let (hi, s) ← pull s
  pure (s.setPc (wordOf hi lo))

/-- The flags after the reset event (R281): I is 1, the others any value, drawn from the n-th free bit on. Under
`push_only` there is no B to change (R33). -/
def Status.drawnAtReset (model : BFlagModel) (old : Status) (n : Nat) : Status where
  n := Config.freeBit n
  v := Config.freeBit (n + 1)
  b := match model with
    | .latched => Config.freeBit (n + 2)
    | .pushOnly => old.b
  d := Config.freeBit (n + 3)
  i := true
  z := Config.freeBit (n + 4)
  c := Config.freeBit (n + 5)

/-- The registers and flags the reset event leaves unspecified, drawn (R281, notes/assumptions/7.md). -/
def State.drawnAtReset (s : State) : State :=
  { s with
    a := Config.freeByte s.draws
    x := Config.freeByte (s.draws + 1)
    y := Config.freeByte (s.draws + 2)
    sp := Config.freeByte (s.draws + 3)
    p := Status.drawnAtReset s.par.bFlagModel s.p s.draws
    nmiPending := false
    draws := s.draws + 6 }

/-- `Reset()` (R281): I is 1, PC the word at the reset vector, no edge pending; memory is not written. -/
def resetEvent (s : State) : Except Refusal State := do
  let (target, s) ← read16 Config.vecReset s.drawnAtReset
  pure (s.setPc target)

/-! From an operation to a step's outcome. -/

/-- The outcome of an operation: the next state, or the model's refusal. There is no fault (R241). -/
def outcome (r : Except Refusal State) : Host.Outcome State Fault Refusal :=
  match r with
  | .ok s => .next s
  | .error r => .refused r

end Sys2Proof.Machine
end

