-- ==== Sys2Proof/Machine/Operands.lean ====
section
/-! DEFINITION. The operand forms (30_encoding.md R73 to R88), the branch target (R86), and the shapes that instructions of
one kind share: read an operand, store a register, modify a byte in place, push, pull, use registers only. Every form an
instruction has is an argument of its shape, so each form's meaning is one line. -/

namespace Sys2Proof.Machine

/-- The operand forms that designate a byte of memory, with their operand bytes (R77 to R82, R84, R85). -/
inductive MemForm where
  | zp (b : Byte)
  | zpx (b : Byte)
  | zpy (b : Byte)
  | abs (a : Word)
  | abx (a : Word)
  | aby (a : Word)
  | izx (b : Byte)
  | izy (b : Byte)
  deriving DecidableEq, Repr

/-- The forms of an instruction that reads an operand (R76, R87). -/
inductive ReadForm where
  | imm (b : Byte)
  | mem (m : MemForm)
  deriving DecidableEq, Repr

/-- The forms of a shift or rotate (R75, R88). -/
inductive ModifyForm where
  | acc
  | mem (m : MemForm)
  deriving DecidableEq, Repr

/-- The length of an instruction with this form (R71), as a word to add to PC. -/
def MemForm.length (m : MemForm) : Word :=
  match m with
  | .zp _ | .zpx _ | .zpy _ | .izx _ | .izy _ => 2
  | .abs _ | .abx _ | .aby _ => 3

/-- The length of an instruction with this form (R71). -/
def ReadForm.length (f : ReadForm) : Word :=
  match f with
  | .imm _ => 2
  | .mem m => m.length

/-- The length of an instruction with this form (R71). -/
def ModifyForm.length (f : ModifyForm) : Word :=
  match f with
  | .acc => 1
  | .mem m => m.length

/-- `EA(mode)` (R77 to R82, R84, R85), after the pointer reads of the form. Zero-page sums are modulo 256, others modulo
65536. -/
def effectiveAddress (m : MemForm) (s : State) : Except Refusal (Word × State) :=
  match m with
  | .zp b => .ok (zeroPage b, s)
  | .zpx b => .ok (zeroPage (b + s.x), s)
  | .zpy b => .ok (zeroPage (b + s.y), s)
  | .abs a => .ok (a, s)
  | .abx a => .ok (a + s.x.zeroExtend 16, s)
  | .aby a => .ok (a + s.y.zeroExtend 16, s)
  | .izx b => read16zp (b + s.x) s
  | .izy b => do
    let (base, s) ← read16zp b s
    pure (base + s.y.zeroExtend 16, s)

/-- `Operand(mode)` of the memory forms (R87): the pointer reads of the form, then one read. -/
def memOperand (m : MemForm) (s : State) : Except Refusal (Byte × State) := do
  let (ea, s) ← effectiveAddress m s
  readByte ea s

/-- `Operand(mode)` (R87). -/
def operand (f : ReadForm) (s : State) : Except Refusal (Byte × State) :=
  match f with
  | .imm b => .ok (b, s)
  | .mem m => memOperand m s

/-- `EA(ind)` (R83): the target of `JMP (Oper)`. Where the pointer's low byte is `0xFF` the parameter
`JMP_IND_PAGE_WRAP` says where the high byte is, and while it is unset the case is refused. -/
def indirectTarget (ptr : Word) (s : State) : Except Refusal (Word × State) := do
  let (lo, s) ← readByte ptr s
  if loByte ptr ≠ 0xFF then
    let (hi, s) ← readByte (ptr + 1) s
    pure (wordOf hi lo, s)
  else
    match s.par.jmpIndPageWrap with
    | .unset => .error (.jmpIndirectPageEnd ptr)
    | .samePage =>
      let (hi, s) ← readByte (wordOf (hiByte ptr) 0x00) s
      pure (wordOf hi lo, s)
    | .nextPage =>
      let (hi, s) ← readByte (ptr + 1) s
      pure (wordOf hi lo, s)

/-- The signed displacement of a branch as a word (R86, C20). -/
def displacement (enc : RelOffsetEncoding) (b : Byte) : Word :=
  match enc with
  | .twosComplement => b.signExtend 16
  | .signMagnitude =>
    let magnitude := (b &&& 0x7F).zeroExtend 16
    if b.msb then -magnitude else magnitude

/-- `EA(rel)` (R86): the address a branch at `pc` goes to when its condition holds. -/
def branchTarget (enc : RelOffsetEncoding) (pc : Word) (b : Byte) : Word :=
  pc + 2 + displacement enc b

/-! Shapes. `update` is what the instruction does with its operand; then `PC <- npc` (R7). -/

/-- The end of an instruction that does not assign PC (R7). -/
def State.advance (s : State) (length : Word) : State := s.setPc (s.pc + length)

/-- Read the operand, update, go on. -/
def runRead (update : Byte → State → State) (f : ReadForm) (s : State) : Host.Outcome State Fault Refusal :=
  outcome do
    let (m, s) ← operand f s
    pure ((update m s).advance f.length)

/-- Store a byte at the form's address, go on (R120): the target is not read. -/
def runStore (value : Byte) (m : MemForm) (s : State) : Host.Outcome State Fault Refusal :=
  outcome do
    let (ea, s) ← effectiveAddress m s
    let s ← writeByte ea value s
    pure (s.advance m.length)

/-- Read a byte of memory, compute, write the result to the same address, go on (R51, R88). The address is computed
once and the write always happens. -/
def runModifyMemory (compute : Byte → Status → Byte × Status) (m : MemForm) (s : State) :
    Host.Outcome State Fault Refusal :=
  outcome do
    let (ea, s) ← effectiveAddress m s
    let (v, s) ← readByte ea s
    let (r, p) := compute v s.p
    let s ← writeByte ea r (s.setP p)
    pure (s.advance m.length)

/-- The same on the accumulator or on memory (R75, R88). -/
def runModify (compute : Byte → Status → Byte × Status) (f : ModifyForm) (s : State) :
    Host.Outcome State Fault Refusal :=
  match f with
  | .acc =>
    let (r, p) := compute s.a s.p
    outcome (.ok (((s.setP p).setA r).advance 1))
  | .mem m => runModifyMemory compute m s

/-- A one-byte instruction that touches registers and flags only. -/
def runImplied (update : State → State) (s : State) : Host.Outcome State Fault Refusal :=
  outcome (.ok ((update s).advance 1))

/-- Push a byte, go on (R140). -/
def runPush (value : Byte) (s : State) : Host.Outcome State Fault Refusal :=
  outcome do
    let s ← push value s
    pure (s.advance 1)

/-- Pull a byte, update, go on (R140). -/
def runPull (update : Byte → State → State) (s : State) : Host.Outcome State Fault Refusal :=
  outcome do
    let (m, s) ← pull s
    pure ((update m s).advance 1)

/-- A conditional branch (R195). -/
def runBranch (taken : Bool) (b : Byte) (s : State) : Host.Outcome State Fault Refusal :=
  outcome (.ok (s.setPc (if taken then branchTarget s.par.relOffset s.pc b else s.pc + 2)))

end Sys2Proof.Machine
end

