-- ==== Sys2Proof/Machine/Arithmetic.lean ====
section
/-! DEFINITION. Arithmetic and compare (43_arithmetic.md R150 to R158), binary and decimal. -/

namespace Sys2Proof.Machine

/-- The result of ADC or SBC as the parameters `DECIMAL_INVALID_BCD` and `DECIMAL_NVZ` have it (R157, D11). In decimal
mode, under `draw`, A, N, V, Z and C after an operand that is not valid BCD, or N, V and Z after any operand, are free
values. -/
def settleDecimal (m : Byte) (r : AluResult) (s : State) : AluResult × State :=
  if s.p.d && s.par.decimalInvalidBcd == .draw && (invalidBcd s.a || invalidBcd m) then
    ({ value := Config.freeByte s.draws
       n := Config.freeBit s.draws
       v := Config.freeBit (s.draws + 1)
       z := Config.freeBit (s.draws + 2)
       c := Config.freeBit (s.draws + 3) }, s.setDraws (s.draws + 4))
  else if s.p.d && s.par.decimalNvz == .draw then
    ({ r with
       n := Config.freeBit s.draws
       v := Config.freeBit (s.draws + 1)
       z := Config.freeBit (s.draws + 2) }, s.setDraws (s.draws + 3))
  else (r, s)

/-- A and the flags from the result of ADC or SBC. -/
def writeAlu (m : Byte) (r : AluResult) (s : State) : State :=
  let (r, s) := settleDecimal m r s
  (s.setP (s.p.setAlu r)).setA r.value

/-- ADC (R150). -/
def adc (f : ReadForm) (s : State) : Host.Outcome State Fault Refusal :=
  runRead (fun m s => writeAlu m (if s.p.d then adcDecimal s.a m s.p.c else adcBinary s.a m s.p.c) s) f s

/-- SBC (R151). -/
def sbc (f : ReadForm) (s : State) : Host.Outcome State Fault Refusal :=
  runRead (fun m s => writeAlu m (if s.p.d then sbcDecimal s.a m s.p.c else sbcBinary s.a m s.p.c) s) f s

/-- CMP (R152). -/
def cmp (f : ReadForm) (s : State) : Host.Outcome State Fault Refusal :=
  runRead (fun m s => s.setP (s.p.setCompare s.a m)) f s

/-- CPX (R153). -/
def cpx (f : ReadForm) (s : State) : Host.Outcome State Fault Refusal :=
  runRead (fun m s => s.setP (s.p.setCompare s.x m)) f s

/-- CPY (R154). -/
def cpy (f : ReadForm) (s : State) : Host.Outcome State Fault Refusal :=
  runRead (fun m s => s.setP (s.p.setCompare s.y m)) f s

/-- 69 `ADC #Oper` (R150, R76). -/
def execAdcImm (b : Byte) (s : State) : Host.Outcome State Fault Refusal :=
  adc (.imm b) s

/-- 65 `ADC Oper` (R150, R77). -/
def execAdcZp (b : Byte) (s : State) : Host.Outcome State Fault Refusal :=
  adc (.mem (.zp b)) s

/-- 75 `ADC Oper,X` (R150, R78). -/
def execAdcZpx (b : Byte) (s : State) : Host.Outcome State Fault Refusal :=
  adc (.mem (.zpx b)) s

/-- 6D `ADC Oper` (R150, R80). -/
def execAdcAbs (a : Word) (s : State) : Host.Outcome State Fault Refusal :=
  adc (.mem (.abs a)) s

/-- 7D `ADC Oper,X` (R150, R81). -/
def execAdcAbx (a : Word) (s : State) : Host.Outcome State Fault Refusal :=
  adc (.mem (.abx a)) s

/-- 79 `ADC Oper,Y` (R150, R82). -/
def execAdcAby (a : Word) (s : State) : Host.Outcome State Fault Refusal :=
  adc (.mem (.aby a)) s

/-- 61 `ADC (Oper,X)` (R150, R84). -/
def execAdcIzx (b : Byte) (s : State) : Host.Outcome State Fault Refusal :=
  adc (.mem (.izx b)) s

/-- 71 `ADC (Oper),Y` (R150, R85). -/
def execAdcIzy (b : Byte) (s : State) : Host.Outcome State Fault Refusal :=
  adc (.mem (.izy b)) s

/-- E9 `SBC #Oper` (R151, R76). -/
def execSbcImm (b : Byte) (s : State) : Host.Outcome State Fault Refusal :=
  sbc (.imm b) s

/-- E5 `SBC Oper` (R151, R77). -/
def execSbcZp (b : Byte) (s : State) : Host.Outcome State Fault Refusal :=
  sbc (.mem (.zp b)) s

/-- F5 `SBC Oper,X` (R151, R78). -/
def execSbcZpx (b : Byte) (s : State) : Host.Outcome State Fault Refusal :=
  sbc (.mem (.zpx b)) s

/-- ED `SBC Oper` (R151, R80). -/
def execSbcAbs (a : Word) (s : State) : Host.Outcome State Fault Refusal :=
  sbc (.mem (.abs a)) s

/-- FD `SBC Oper,X` (R151, R81). -/
def execSbcAbx (a : Word) (s : State) : Host.Outcome State Fault Refusal :=
  sbc (.mem (.abx a)) s

/-- F9 `SBC Oper,Y` (R151, R82). -/
def execSbcAby (a : Word) (s : State) : Host.Outcome State Fault Refusal :=
  sbc (.mem (.aby a)) s

/-- E1 `SBC (Oper,X)` (R151, R84). -/
def execSbcIzx (b : Byte) (s : State) : Host.Outcome State Fault Refusal :=
  sbc (.mem (.izx b)) s

/-- F1 `SBC (Oper),Y` (R151, R85). -/
def execSbcIzy (b : Byte) (s : State) : Host.Outcome State Fault Refusal :=
  sbc (.mem (.izy b)) s

/-- C9 `CMP #Oper` (R152, R76). -/
def execCmpImm (b : Byte) (s : State) : Host.Outcome State Fault Refusal :=
  cmp (.imm b) s

/-- C5 `CMP Oper` (R152, R77). -/
def execCmpZp (b : Byte) (s : State) : Host.Outcome State Fault Refusal :=
  cmp (.mem (.zp b)) s

/-- D5 `CMP Oper,X` (R152, R78). -/
def execCmpZpx (b : Byte) (s : State) : Host.Outcome State Fault Refusal :=
  cmp (.mem (.zpx b)) s

/-- CD `CMP Oper` (R152, R80). -/
def execCmpAbs (a : Word) (s : State) : Host.Outcome State Fault Refusal :=
  cmp (.mem (.abs a)) s

/-- DD `CMP Oper,X` (R152, R81). -/
def execCmpAbx (a : Word) (s : State) : Host.Outcome State Fault Refusal :=
  cmp (.mem (.abx a)) s

/-- D9 `CMP Oper,Y` (R152, R82). -/
def execCmpAby (a : Word) (s : State) : Host.Outcome State Fault Refusal :=
  cmp (.mem (.aby a)) s

/-- C1 `CMP (Oper,X)` (R152, R84). -/
def execCmpIzx (b : Byte) (s : State) : Host.Outcome State Fault Refusal :=
  cmp (.mem (.izx b)) s

/-- D1 `CMP (Oper),Y` (R152, R85). -/
def execCmpIzy (b : Byte) (s : State) : Host.Outcome State Fault Refusal :=
  cmp (.mem (.izy b)) s

/-- E0 `CPX #Oper` (R153, R76). -/
def execCpxImm (b : Byte) (s : State) : Host.Outcome State Fault Refusal :=
  cpx (.imm b) s

/-- E4 `CPX Oper` (R153, R77). -/
def execCpxZp (b : Byte) (s : State) : Host.Outcome State Fault Refusal :=
  cpx (.mem (.zp b)) s

/-- EC `CPX Oper` (R153, R80). -/
def execCpxAbs (a : Word) (s : State) : Host.Outcome State Fault Refusal :=
  cpx (.mem (.abs a)) s

/-- C0 `CPY #Oper` (R154, R76). -/
def execCpyImm (b : Byte) (s : State) : Host.Outcome State Fault Refusal :=
  cpy (.imm b) s

/-- C4 `CPY Oper` (R154, R77). -/
def execCpyZp (b : Byte) (s : State) : Host.Outcome State Fault Refusal :=
  cpy (.mem (.zp b)) s

/-- CC `CPY Oper` (R154, R80). -/
def execCpyAbs (a : Word) (s : State) : Host.Outcome State Fault Refusal :=
  cpy (.mem (.abs a)) s

end Sys2Proof.Machine
end

