-- ==== Sys2Proof/Machine/Branch.lean ====
section
/-! DEFINITION. Conditional branches (47_branch.md R195 to R205). Each tests one flag; the rest is `runBranch`. -/

namespace Sys2Proof.Machine

/-- 90 `BCC Oper` (R196). -/
def execBcc (b : Byte) (s : State) : Host.Outcome State Fault Refusal :=
  runBranch (!s.p.c) b s

/-- B0 `BCS Oper` (R197). -/
def execBcs (b : Byte) (s : State) : Host.Outcome State Fault Refusal :=
  runBranch s.p.c b s

/-- F0 `BEQ Oper` (R198). -/
def execBeq (b : Byte) (s : State) : Host.Outcome State Fault Refusal :=
  runBranch s.p.z b s

/-- 30 `BMI Oper` (R199). -/
def execBmi (b : Byte) (s : State) : Host.Outcome State Fault Refusal :=
  runBranch s.p.n b s

/-- D0 `BNE Oper` (R200). -/
def execBne (b : Byte) (s : State) : Host.Outcome State Fault Refusal :=
  runBranch (!s.p.z) b s

/-- 10 `BPL Oper` (R201). -/
def execBpl (b : Byte) (s : State) : Host.Outcome State Fault Refusal :=
  runBranch (!s.p.n) b s

/-- 50 `BVC Oper` (R202). -/
def execBvc (b : Byte) (s : State) : Host.Outcome State Fault Refusal :=
  runBranch (!s.p.v) b s

/-- 70 `BVS Oper` (R203). -/
def execBvs (b : Byte) (s : State) : Host.Outcome State Fault Refusal :=
  runBranch s.p.v b s

end Sys2Proof.Machine
end

