-- ==== Sys2Proof/Machine/FlagSystem.lean ====
section
/-! DEFINITION. Flag and system instructions (49_flag_system.md R220 to R231), and the reserved opcodes (30_encoding.md R97). -/

namespace Sys2Proof.Machine

/-- 18 `CLC` (R221). -/
def execClc (s : State) : Host.Outcome State Fault Refusal :=
  runImplied (fun s => s.setP { s.p with c := false }) s

/-- D8 `CLD` (R222). -/
def execCld (s : State) : Host.Outcome State Fault Refusal :=
  runImplied (fun s => s.setP { s.p with d := false }) s

/-- 58 `CLI` (R223). -/
def execCli (s : State) : Host.Outcome State Fault Refusal :=
  runImplied (fun s => s.setP { s.p with i := false }) s

/-- B8 `CLV` (R224). -/
def execClv (s : State) : Host.Outcome State Fault Refusal :=
  runImplied (fun s => s.setP { s.p with v := false }) s

/-- 38 `SEC` (R225). -/
def execSec (s : State) : Host.Outcome State Fault Refusal :=
  runImplied (fun s => s.setP { s.p with c := true }) s

/-- F8 `SED` (R226). -/
def execSed (s : State) : Host.Outcome State Fault Refusal :=
  runImplied (fun s => s.setP { s.p with d := true }) s

/-- 78 `SEI` (R230). -/
def execSei (s : State) : Host.Outcome State Fault Refusal :=
  runImplied (fun s => s.setP { s.p with i := true }) s

/-- EA `NOP` (R227). Only PC moves. -/
def execNop (s : State) : Host.Outcome State Fault Refusal :=
  runImplied (fun s => s) s

/-- 00 `BRK` (R228). `Interrupt(brk)`, R245. -/
def execBrk (s : State) : Host.Outcome State Fault Refusal :=
  outcome (takeInterrupt .brk s)

/-- 40 `RTI` (R229). -/
def execRti (s : State) : Host.Outcome State Fault Refusal :=
  outcome (returnFromInterrupt s)

/-- A reserved opcode (R97, R242): the spec gives it no effect, and the model refuses it. -/
def execReserved (op : Byte) (_ : State) : Host.Outcome State Fault Refusal :=
  .refused (.reservedOpcode op)

end Sys2Proof.Machine
end

