-- ==== Sys2Proof/Machine/IncDec.lean ====
section
/-! DEFINITION. Increment and decrement (46_inc_dec.md R185 to R191). -/

namespace Sys2Proof.Machine

/-- A byte and P with N and Z of it (R185). -/
def withNZ (r : Byte) (p : Status) : Byte × Status := (r, p.setNZ r)

/-- INC (R186). -/
def inc (m : MemForm) (s : State) : Host.Outcome State Fault Refusal :=
  runModifyMemory (fun v p => withNZ (v + 1) p) m s

/-- DEC (R189). -/
def dec (m : MemForm) (s : State) : Host.Outcome State Fault Refusal :=
  runModifyMemory (fun v p => withNZ (v - 1) p) m s

/-- E6 `INC Oper` (R186, R77). -/
def execIncZp (b : Byte) (s : State) : Host.Outcome State Fault Refusal :=
  inc (.zp b) s

/-- F6 `INC Oper,X` (R186, R78). -/
def execIncZpx (b : Byte) (s : State) : Host.Outcome State Fault Refusal :=
  inc (.zpx b) s

/-- EE `INC Oper` (R186, R80). -/
def execIncAbs (a : Word) (s : State) : Host.Outcome State Fault Refusal :=
  inc (.abs a) s

/-- FE `INC Oper,X` (R186, R81). -/
def execIncAbx (a : Word) (s : State) : Host.Outcome State Fault Refusal :=
  inc (.abx a) s

/-- E8 `INX` (R187). -/
def execInx (s : State) : Host.Outcome State Fault Refusal :=
  runImplied (fun s => (s.setP (s.p.setNZ (s.x + 1))).setX (s.x + 1)) s

/-- C8 `INY` (R188). X takes no part (C13). -/
def execIny (s : State) : Host.Outcome State Fault Refusal :=
  runImplied (fun s => (s.setP (s.p.setNZ (s.y + 1))).setY (s.y + 1)) s

/-- C6 `DEC Oper` (R189, R77). -/
def execDecZp (b : Byte) (s : State) : Host.Outcome State Fault Refusal :=
  dec (.zp b) s

/-- D6 `DEC Oper,X` (R189, R78). -/
def execDecZpx (b : Byte) (s : State) : Host.Outcome State Fault Refusal :=
  dec (.zpx b) s

/-- CE `DEC Oper` (R189, R80). -/
def execDecAbs (a : Word) (s : State) : Host.Outcome State Fault Refusal :=
  dec (.abs a) s

/-- DE `DEC Oper,X` (R189, R81). -/
def execDecAbx (a : Word) (s : State) : Host.Outcome State Fault Refusal :=
  dec (.abx a) s

/-- CA `DEX` (R190). -/
def execDex (s : State) : Host.Outcome State Fault Refusal :=
  runImplied (fun s => (s.setP (s.p.setNZ (s.x - 1))).setX (s.x - 1)) s

/-- 88 `DEY` (R191). X takes no part (C13). -/
def execDey (s : State) : Host.Outcome State Fault Refusal :=
  runImplied (fun s => (s.setP (s.p.setNZ (s.y - 1))).setY (s.y - 1)) s

end Sys2Proof.Machine
end

