-- ==== Sys2Proof/Machine/Jump.lean ====
section
/-! DEFINITION. Jumps and subroutines (48_jump_subroutine.md R210 to R214). -/

namespace Sys2Proof.Machine

/-- 4C `JMP Oper` (R212, R80). -/
def execJmpAbs (a : Word) (s : State) : Host.Outcome State Fault Refusal :=
  outcome (.ok (s.setPc a))

/-- 6C `JMP (Oper)` (R212, R83). -/
def execJmpInd (a : Word) (s : State) : Host.Outcome State Fault Refusal :=
  outcome do
    let (target, s) ← indirectTarget a s
    pure (s.setPc target)

/-- Would a JSR at this state write its return address over its own last byte (R211)? -/
def jsrOverlaps (s : State) : Bool :=
  s.pc + 2 == stackAddress s.sp || s.pc + 2 == stackAddress (s.sp - 1)

/-- 20 `JSR Oper` (R211): push the address of its own last byte, high byte first, and go to the operand. The case in which a
push would overwrite that last byte is refused (D24). -/
def execJsr (a : Word) (s : State) : Host.Outcome State Fault Refusal :=
  outcome do
    let ret := s.pc + 2
    if jsrOverlaps s then .error (.jsrOverwritesOperand ret)
    else
      let s ← push (hiByte ret) s
      let s ← push (loByte ret) s
      pure (s.setPc a)

/-- 60 `RTS` (R213): pull the low byte, then the high byte, and go on one past that address. -/
def execRts (s : State) : Host.Outcome State Fault Refusal :=
  outcome do
    let (lo, s) ← pull s
    let (hi, s) ← pull s
    pure (s.setPc (wordOf hi lo + 1))

end Sys2Proof.Machine
end

