-- ==== Sys2Proof/Machine/LoadStore.lean ====
section
/-! DEFINITION. Load and store (40_load_store.md R120 to R126). -/

namespace Sys2Proof.Machine

/-- LDA (R121). -/
def lda (f : ReadForm) (s : State) : Host.Outcome State Fault Refusal :=
  runRead (fun m s => (s.setP (s.p.setNZ m)).setA m) f s

/-- LDX (R122). -/
def ldx (f : ReadForm) (s : State) : Host.Outcome State Fault Refusal :=
  runRead (fun m s => (s.setP (s.p.setNZ m)).setX m) f s

/-- LDY (R123). -/
def ldy (f : ReadForm) (s : State) : Host.Outcome State Fault Refusal :=
  runRead (fun m s => (s.setP (s.p.setNZ m)).setY m) f s

/-- STA (R124). -/
def sta (m : MemForm) (s : State) : Host.Outcome State Fault Refusal :=
  runStore s.a m s

/-- STX (R125). -/
def stx (m : MemForm) (s : State) : Host.Outcome State Fault Refusal :=
  runStore s.x m s

/-- STY (R126). -/
def sty (m : MemForm) (s : State) : Host.Outcome State Fault Refusal :=
  runStore s.y m s

/-- A9 `LDA #Oper` (R121, R76). -/
def execLdaImm (b : Byte) (s : State) : Host.Outcome State Fault Refusal :=
  lda (.imm b) s

/-- A5 `LDA Oper` (R121, R77). -/
def execLdaZp (b : Byte) (s : State) : Host.Outcome State Fault Refusal :=
  lda (.mem (.zp b)) s

/-- B5 `LDA Oper,X` (R121, R78). -/
def execLdaZpx (b : Byte) (s : State) : Host.Outcome State Fault Refusal :=
  lda (.mem (.zpx b)) s

/-- AD `LDA Oper` (R121, R80). -/
def execLdaAbs (a : Word) (s : State) : Host.Outcome State Fault Refusal :=
  lda (.mem (.abs a)) s

/-- BD `LDA Oper,X` (R121, R81). -/
def execLdaAbx (a : Word) (s : State) : Host.Outcome State Fault Refusal :=
  lda (.mem (.abx a)) s

/-- B9 `LDA Oper,Y` (R121, R82). -/
def execLdaAby (a : Word) (s : State) : Host.Outcome State Fault Refusal :=
  lda (.mem (.aby a)) s

/-- A1 `LDA (Oper,X)` (R121, R84). -/
def execLdaIzx (b : Byte) (s : State) : Host.Outcome State Fault Refusal :=
  lda (.mem (.izx b)) s

/-- B1 `LDA (Oper),Y` (R121, R85). -/
def execLdaIzy (b : Byte) (s : State) : Host.Outcome State Fault Refusal :=
  lda (.mem (.izy b)) s

/-- A2 `LDX #Oper` (R122, R76). -/
def execLdxImm (b : Byte) (s : State) : Host.Outcome State Fault Refusal :=
  ldx (.imm b) s

/-- A6 `LDX Oper` (R122, R77). -/
def execLdxZp (b : Byte) (s : State) : Host.Outcome State Fault Refusal :=
  ldx (.mem (.zp b)) s

/-- B6 `LDX Oper,Y` (R122, R79). -/
def execLdxZpy (b : Byte) (s : State) : Host.Outcome State Fault Refusal :=
  ldx (.mem (.zpy b)) s

/-- AE `LDX Oper` (R122, R80). -/
def execLdxAbs (a : Word) (s : State) : Host.Outcome State Fault Refusal :=
  ldx (.mem (.abs a)) s

/-- BE `LDX Oper,Y` (R122, R82). -/
def execLdxAby (a : Word) (s : State) : Host.Outcome State Fault Refusal :=
  ldx (.mem (.aby a)) s

/-- A0 `LDY #Oper` (R123, R76). -/
def execLdyImm (b : Byte) (s : State) : Host.Outcome State Fault Refusal :=
  ldy (.imm b) s

/-- A4 `LDY Oper` (R123, R77). -/
def execLdyZp (b : Byte) (s : State) : Host.Outcome State Fault Refusal :=
  ldy (.mem (.zp b)) s

/-- B4 `LDY Oper,X` (R123, R78). -/
def execLdyZpx (b : Byte) (s : State) : Host.Outcome State Fault Refusal :=
  ldy (.mem (.zpx b)) s

/-- AC `LDY Oper` (R123, R80). -/
def execLdyAbs (a : Word) (s : State) : Host.Outcome State Fault Refusal :=
  ldy (.mem (.abs a)) s

/-- BC `LDY Oper,X` (R123, R81). -/
def execLdyAbx (a : Word) (s : State) : Host.Outcome State Fault Refusal :=
  ldy (.mem (.abx a)) s

/-- 85 `STA Oper` (R124, R77). -/
def execStaZp (b : Byte) (s : State) : Host.Outcome State Fault Refusal :=
  sta (.zp b) s

/-- 95 `STA Oper,X` (R124, R78). -/
def execStaZpx (b : Byte) (s : State) : Host.Outcome State Fault Refusal :=
  sta (.zpx b) s

/-- 8D `STA Oper` (R124, R80). -/
def execStaAbs (a : Word) (s : State) : Host.Outcome State Fault Refusal :=
  sta (.abs a) s

/-- 9D `STA Oper,X` (R124, R81). -/
def execStaAbx (a : Word) (s : State) : Host.Outcome State Fault Refusal :=
  sta (.abx a) s

/-- 99 `STA Oper,Y` (R124, R82). -/
def execStaAby (a : Word) (s : State) : Host.Outcome State Fault Refusal :=
  sta (.aby a) s

/-- 81 `STA (Oper,X)` (R124, R84). -/
def execStaIzx (b : Byte) (s : State) : Host.Outcome State Fault Refusal :=
  sta (.izx b) s

/-- 91 `STA (Oper),Y` (R124, R85). -/
def execStaIzy (b : Byte) (s : State) : Host.Outcome State Fault Refusal :=
  sta (.izy b) s

/-- 86 `STX Oper` (R125, R77). -/
def execStxZp (b : Byte) (s : State) : Host.Outcome State Fault Refusal :=
  stx (.zp b) s

/-- 96 `STX Oper,Y` (R125, R79). -/
def execStxZpy (b : Byte) (s : State) : Host.Outcome State Fault Refusal :=
  stx (.zpy b) s

/-- 8E `STX Oper` (R125, R80). -/
def execStxAbs (a : Word) (s : State) : Host.Outcome State Fault Refusal :=
  stx (.abs a) s

/-- 84 `STY Oper` (R126, R77). -/
def execStyZp (b : Byte) (s : State) : Host.Outcome State Fault Refusal :=
  sty (.zp b) s

/-- 94 `STY Oper,X` (R126, R78). -/
def execStyZpx (b : Byte) (s : State) : Host.Outcome State Fault Refusal :=
  sty (.zpx b) s

/-- 8C `STY Oper` (R126, R80). -/
def execStyAbs (a : Word) (s : State) : Host.Outcome State Fault Refusal :=
  sty (.abs a) s

end Sys2Proof.Machine
end

