-- ==== Sys2Proof/Machine/Logic.lean ====
section
/-! DEFINITION. Logic and bit test (44_logic.md R165 to R169). -/

namespace Sys2Proof.Machine

/-- The result of AND, EOR or ORA to A, with N and Z (R165). -/
def writeLogic (r : Byte) (s : State) : State := (s.setP (s.p.setNZ r)).setA r

/-- AND (R166). -/
def andA (f : ReadForm) (s : State) : Host.Outcome State Fault Refusal :=
  runRead (fun m s => writeLogic (s.a &&& m) s) f s

/-- EOR (R167). -/
def eorA (f : ReadForm) (s : State) : Host.Outcome State Fault Refusal :=
  runRead (fun m s => writeLogic (s.a ^^^ m) s) f s

/-- ORA (R168). -/
def oraA (f : ReadForm) (s : State) : Host.Outcome State Fault Refusal :=
  runRead (fun m s => writeLogic (s.a ||| m) s) f s

/-- BIT (R169). -/
def bitTest (m : MemForm) (s : State) : Host.Outcome State Fault Refusal :=
  runRead (fun m s => s.setP (s.p.setBitTest s.a m)) (.mem m) s

/-- 29 `AND #Oper` (R166, R76). -/
def execAndImm (b : Byte) (s : State) : Host.Outcome State Fault Refusal :=
  andA (.imm b) s

/-- 25 `AND Oper` (R166, R77). -/
def execAndZp (b : Byte) (s : State) : Host.Outcome State Fault Refusal :=
  andA (.mem (.zp b)) s

/-- 35 `AND Oper,X` (R166, R78). -/
def execAndZpx (b : Byte) (s : State) : Host.Outcome State Fault Refusal :=
  andA (.mem (.zpx b)) s

/-- 2D `AND Oper` (R166, R80). -/
def execAndAbs (a : Word) (s : State) : Host.Outcome State Fault Refusal :=
  andA (.mem (.abs a)) s

/-- 3D `AND Oper,X` (R166, R81). -/
def execAndAbx (a : Word) (s : State) : Host.Outcome State Fault Refusal :=
  andA (.mem (.abx a)) s

/-- 39 `AND Oper,Y` (R166, R82). -/
def execAndAby (a : Word) (s : State) : Host.Outcome State Fault Refusal :=
  andA (.mem (.aby a)) s

/-- 21 `AND (Oper,X)` (R166, R84). -/
def execAndIzx (b : Byte) (s : State) : Host.Outcome State Fault Refusal :=
  andA (.mem (.izx b)) s

/-- 31 `AND (Oper),Y` (R166, R85). -/
def execAndIzy (b : Byte) (s : State) : Host.Outcome State Fault Refusal :=
  andA (.mem (.izy b)) s

/-- 49 `EOR #Oper` (R167, R76). -/
def execEorImm (b : Byte) (s : State) : Host.Outcome State Fault Refusal :=
  eorA (.imm b) s

/-- 45 `EOR Oper` (R167, R77). -/
def execEorZp (b : Byte) (s : State) : Host.Outcome State Fault Refusal :=
  eorA (.mem (.zp b)) s

/-- 55 `EOR Oper,X` (R167, R78). -/
def execEorZpx (b : Byte) (s : State) : Host.Outcome State Fault Refusal :=
  eorA (.mem (.zpx b)) s

/-- 4D `EOR Oper` (R167, R80). -/
def execEorAbs (a : Word) (s : State) : Host.Outcome State Fault Refusal :=
  eorA (.mem (.abs a)) s

/-- 5D `EOR Oper,X` (R167, R81). -/
def execEorAbx (a : Word) (s : State) : Host.Outcome State Fault Refusal :=
  eorA (.mem (.abx a)) s

/-- 59 `EOR Oper,Y` (R167, R82). -/
def execEorAby (a : Word) (s : State) : Host.Outcome State Fault Refusal :=
  eorA (.mem (.aby a)) s

/-- 41 `EOR (Oper,X)` (R167, R84). -/
def execEorIzx (b : Byte) (s : State) : Host.Outcome State Fault Refusal :=
  eorA (.mem (.izx b)) s

/-- 51 `EOR (Oper),Y` (R167, R85). -/
def execEorIzy (b : Byte) (s : State) : Host.Outcome State Fault Refusal :=
  eorA (.mem (.izy b)) s

/-- 09 `ORA #Oper` (R168, R76). -/
def execOraImm (b : Byte) (s : State) : Host.Outcome State Fault Refusal :=
  oraA (.imm b) s

/-- 05 `ORA Oper` (R168, R77). -/
def execOraZp (b : Byte) (s : State) : Host.Outcome State Fault Refusal :=
  oraA (.mem (.zp b)) s

/-- 15 `ORA Oper,X` (R168, R78). -/
def execOraZpx (b : Byte) (s : State) : Host.Outcome State Fault Refusal :=
  oraA (.mem (.zpx b)) s

/-- 0D `ORA Oper` (R168, R80). -/
def execOraAbs (a : Word) (s : State) : Host.Outcome State Fault Refusal :=
  oraA (.mem (.abs a)) s

/-- 1D `ORA Oper,X` (R168, R81). -/
def execOraAbx (a : Word) (s : State) : Host.Outcome State Fault Refusal :=
  oraA (.mem (.abx a)) s

/-- 19 `ORA Oper,Y` (R168, R82). -/
def execOraAby (a : Word) (s : State) : Host.Outcome State Fault Refusal :=
  oraA (.mem (.aby a)) s

/-- 01 `ORA (Oper,X)` (R168, R84). -/
def execOraIzx (b : Byte) (s : State) : Host.Outcome State Fault Refusal :=
  oraA (.mem (.izx b)) s

/-- 11 `ORA (Oper),Y` (R168, R85). -/
def execOraIzy (b : Byte) (s : State) : Host.Outcome State Fault Refusal :=
  oraA (.mem (.izy b)) s

/-- 24 `BIT Oper` (R169, R77). -/
def execBitZp (b : Byte) (s : State) : Host.Outcome State Fault Refusal :=
  bitTest (.zp b) s

/-- 2C `BIT Oper` (R169, R80). -/
def execBitAbs (a : Word) (s : State) : Host.Outcome State Fault Refusal :=
  bitTest (.abs a) s

end Sys2Proof.Machine
end

