-- ==== Sys2Proof/Machine/Shift.lean ====
section
/-! DEFINITION. Shifts and rotates (45_shift_rotate.md R175 to R179). -/

namespace Sys2Proof.Machine

/-- A shift or rotate and its flags (R175): the result, and P with N, Z of the result and C the bit that left. -/
def shiftWith (shift : Byte → Bool → Byte × Bool) (m : Byte) (p : Status) : Byte × Status :=
  let r := shift m p.c
  (r.1, p.setShift r)

/-- ASL (R176). -/
def asl (f : ModifyForm) (s : State) : Host.Outcome State Fault Refusal := runModify (shiftWith aslByte) f s

/-- LSR (R177). -/
def lsr (f : ModifyForm) (s : State) : Host.Outcome State Fault Refusal := runModify (shiftWith lsrByte) f s

/-- ROL (R179). -/
def rol (f : ModifyForm) (s : State) : Host.Outcome State Fault Refusal := runModify (shiftWith rolByte) f s

/-- ROR (R178). -/
def ror (f : ModifyForm) (s : State) : Host.Outcome State Fault Refusal := runModify (shiftWith rorByte) f s

/-- 0A `ASL A` (R176, R75). -/
def execAslAcc (s : State) : Host.Outcome State Fault Refusal :=
  asl .acc s

/-- 06 `ASL Oper` (R176, R77). -/
def execAslZp (b : Byte) (s : State) : Host.Outcome State Fault Refusal :=
  asl (.mem (.zp b)) s

/-- 16 `ASL Oper,X` (R176, R78). -/
def execAslZpx (b : Byte) (s : State) : Host.Outcome State Fault Refusal :=
  asl (.mem (.zpx b)) s

/-- 0E `ASL Oper` (R176, R80). -/
def execAslAbs (a : Word) (s : State) : Host.Outcome State Fault Refusal :=
  asl (.mem (.abs a)) s

/-- 1E `ASL Oper,X` (R176, R81). -/
def execAslAbx (a : Word) (s : State) : Host.Outcome State Fault Refusal :=
  asl (.mem (.abx a)) s

/-- 4A `LSR A` (R177, R75). -/
def execLsrAcc (s : State) : Host.Outcome State Fault Refusal :=
  lsr .acc s

/-- 46 `LSR Oper` (R177, R77). -/
def execLsrZp (b : Byte) (s : State) : Host.Outcome State Fault Refusal :=
  lsr (.mem (.zp b)) s

/-- 56 `LSR Oper,X` (R177, R78). -/
def execLsrZpx (b : Byte) (s : State) : Host.Outcome State Fault Refusal :=
  lsr (.mem (.zpx b)) s

/-- 4E `LSR Oper` (R177, R80). -/
def execLsrAbs (a : Word) (s : State) : Host.Outcome State Fault Refusal :=
  lsr (.mem (.abs a)) s

/-- 5E `LSR Oper,X` (R177, R81). -/
def execLsrAbx (a : Word) (s : State) : Host.Outcome State Fault Refusal :=
  lsr (.mem (.abx a)) s

/-- 2A `ROL A` (R179, R75). -/
def execRolAcc (s : State) : Host.Outcome State Fault Refusal :=
  rol .acc s

/-- 26 `ROL Oper` (R179, R77). -/
def execRolZp (b : Byte) (s : State) : Host.Outcome State Fault Refusal :=
  rol (.mem (.zp b)) s

/-- 36 `ROL Oper,X` (R179, R78). -/
def execRolZpx (b : Byte) (s : State) : Host.Outcome State Fault Refusal :=
  rol (.mem (.zpx b)) s

/-- 2E `ROL Oper` (R179, R80). -/
def execRolAbs (a : Word) (s : State) : Host.Outcome State Fault Refusal :=
  rol (.mem (.abs a)) s

/-- 3E `ROL Oper,X` (R179, R81). -/
def execRolAbx (a : Word) (s : State) : Host.Outcome State Fault Refusal :=
  rol (.mem (.abx a)) s

/-- 6A `ROR A` (R178, R75). -/
def execRorAcc (s : State) : Host.Outcome State Fault Refusal :=
  ror .acc s

/-- 66 `ROR Oper` (R178, R77). -/
def execRorZp (b : Byte) (s : State) : Host.Outcome State Fault Refusal :=
  ror (.mem (.zp b)) s

/-- 76 `ROR Oper,X` (R178, R78). -/
def execRorZpx (b : Byte) (s : State) : Host.Outcome State Fault Refusal :=
  ror (.mem (.zpx b)) s

/-- 6E `ROR Oper` (R178, R80). -/
def execRorAbs (a : Word) (s : State) : Host.Outcome State Fault Refusal :=
  ror (.mem (.abs a)) s

/-- 7E `ROR Oper,X` (R178, R81). -/
def execRorAbx (a : Word) (s : State) : Host.Outcome State Fault Refusal :=
  ror (.mem (.abx a)) s

end Sys2Proof.Machine
end

