-- ==== Sys2Proof/Machine/Stack.lean ====
section
/-! DEFINITION. The stack instructions (42_stack.md R140 to R144). -/

namespace Sys2Proof.Machine

/-- 48 `PHA` (R141). -/
def execPha (s : State) : Host.Outcome State Fault Refusal :=
  runPush s.a s

/-- 08 `PHP` (R142). Bit 4 is the stored B under `latched`, 1 under `push_only`. -/
def execPhp (s : State) : Host.Outcome State Fault Refusal :=
  runPush (s.p.pushedByPhp s.par.bFlagModel) s

/-- 68 `PLA` (R143). N and Z are set (C14) and A is written (C15). -/
def execPla (s : State) : Host.Outcome State Fault Refusal :=
  runPull (fun m s => (s.setP (s.p.setNZ m)).setA m) s

/-- 28 `PLP` (R144). -/
def execPlp (s : State) : Host.Outcome State Fault Refusal :=
  runPull (fun m s => s.setP (Status.ofByte s.par.bFlagModel s.p m)) s

end Sys2Proof.Machine
end

