-- ==== Sys2Proof/Machine/Transfer.lean ====
section
/-! DEFINITION. Register transfers (41_transfer.md R130 to R136). -/

namespace Sys2Proof.Machine

/-- AA `TAX` (R131). -/
def execTax (s : State) : Host.Outcome State Fault Refusal :=
  runImplied (fun s => (s.setP (s.p.setNZ s.a)).setX s.a) s

/-- A8 `TAY` (R132). -/
def execTay (s : State) : Host.Outcome State Fault Refusal :=
  runImplied (fun s => (s.setP (s.p.setNZ s.a)).setY s.a) s

/-- BA `TSX` (R133). -/
def execTsx (s : State) : Host.Outcome State Fault Refusal :=
  runImplied (fun s => (s.setP (s.p.setNZ s.sp)).setX s.sp) s

/-- 8A `TXA` (R134). -/
def execTxa (s : State) : Host.Outcome State Fault Refusal :=
  runImplied (fun s => (s.setP (s.p.setNZ s.x)).setA s.x) s

/-- 9A `TXS` (R135). No flag changes. -/
def execTxs (s : State) : Host.Outcome State Fault Refusal :=
  runImplied (fun s => s.setSp s.x) s

/-- 98 `TYA` (R136). -/
def execTya (s : State) : Host.Outcome State Fault Refusal :=
  runImplied (fun s => (s.setP (s.p.setNZ s.y)).setA s.y) s

end Sys2Proof.Machine
end

