-- ==== Sys2Proof/Machine/Dispatch.lean ====
section
/-! DEFINITION. One arm for each constructor of `Instr`: a direct call of its meaning. -/

namespace Sys2Proof.Machine

def exec (i : Instr) (s : State) : Host.Outcome State Fault Refusal :=
  match i with
  -- 40_load_store.md
  | .ldaImm b => Sys2Proof.Machine.execLdaImm b s
  | .ldaZp b => Sys2Proof.Machine.execLdaZp b s
  | .ldaZpx b => Sys2Proof.Machine.execLdaZpx b s
  | .ldaAbs a => Sys2Proof.Machine.execLdaAbs a s
  | .ldaAbx a => Sys2Proof.Machine.execLdaAbx a s
  | .ldaAby a => Sys2Proof.Machine.execLdaAby a s
  | .ldaIzx b => Sys2Proof.Machine.execLdaIzx b s
  | .ldaIzy b => Sys2Proof.Machine.execLdaIzy b s
  | .ldxImm b => Sys2Proof.Machine.execLdxImm b s
  | .ldxZp b => Sys2Proof.Machine.execLdxZp b s
  | .ldxZpy b => Sys2Proof.Machine.execLdxZpy b s
  | .ldxAbs a => Sys2Proof.Machine.execLdxAbs a s
  | .ldxAby a => Sys2Proof.Machine.execLdxAby a s
  | .ldyImm b => Sys2Proof.Machine.execLdyImm b s
  | .ldyZp b => Sys2Proof.Machine.execLdyZp b s
  | .ldyZpx b => Sys2Proof.Machine.execLdyZpx b s
  | .ldyAbs a => Sys2Proof.Machine.execLdyAbs a s
  | .ldyAbx a => Sys2Proof.Machine.execLdyAbx a s
  | .staZp b => Sys2Proof.Machine.execStaZp b s
  | .staZpx b => Sys2Proof.Machine.execStaZpx b s
  | .staAbs a => Sys2Proof.Machine.execStaAbs a s
  | .staAbx a => Sys2Proof.Machine.execStaAbx a s
  | .staAby a => Sys2Proof.Machine.execStaAby a s
  | .staIzx b => Sys2Proof.Machine.execStaIzx b s
  | .staIzy b => Sys2Proof.Machine.execStaIzy b s
  | .stxZp b => Sys2Proof.Machine.execStxZp b s
  | .stxZpy b => Sys2Proof.Machine.execStxZpy b s
  | .stxAbs a => Sys2Proof.Machine.execStxAbs a s
  | .styZp b => Sys2Proof.Machine.execStyZp b s
  | .styZpx b => Sys2Proof.Machine.execStyZpx b s
  | .styAbs a => Sys2Proof.Machine.execStyAbs a s
  -- 41_transfer.md
  | .tax => Sys2Proof.Machine.execTax s
  | .tay => Sys2Proof.Machine.execTay s
  | .tsx => Sys2Proof.Machine.execTsx s
  | .txa => Sys2Proof.Machine.execTxa s
  | .txs => Sys2Proof.Machine.execTxs s
  | .tya => Sys2Proof.Machine.execTya s
  -- 42_stack.md
  | .pha => Sys2Proof.Machine.execPha s
  | .php => Sys2Proof.Machine.execPhp s
  | .pla => Sys2Proof.Machine.execPla s
  | .plp => Sys2Proof.Machine.execPlp s
  -- 43_arithmetic.md
  | .adcImm b => Sys2Proof.Machine.execAdcImm b s
  | .adcZp b => Sys2Proof.Machine.execAdcZp b s
  | .adcZpx b => Sys2Proof.Machine.execAdcZpx b s
  | .adcAbs a => Sys2Proof.Machine.execAdcAbs a s
  | .adcAbx a => Sys2Proof.Machine.execAdcAbx a s
  | .adcAby a => Sys2Proof.Machine.execAdcAby a s
  | .adcIzx b => Sys2Proof.Machine.execAdcIzx b s
  | .adcIzy b => Sys2Proof.Machine.execAdcIzy b s
  | .sbcImm b => Sys2Proof.Machine.execSbcImm b s
  | .sbcZp b => Sys2Proof.Machine.execSbcZp b s
  | .sbcZpx b => Sys2Proof.Machine.execSbcZpx b s
  | .sbcAbs a => Sys2Proof.Machine.execSbcAbs a s
  | .sbcAbx a => Sys2Proof.Machine.execSbcAbx a s
  | .sbcAby a => Sys2Proof.Machine.execSbcAby a s
  | .sbcIzx b => Sys2Proof.Machine.execSbcIzx b s
  | .sbcIzy b => Sys2Proof.Machine.execSbcIzy b s
  | .cmpImm b => Sys2Proof.Machine.execCmpImm b s
  | .cmpZp b => Sys2Proof.Machine.execCmpZp b s
  | .cmpZpx b => Sys2Proof.Machine.execCmpZpx b s
  | .cmpAbs a => Sys2Proof.Machine.execCmpAbs a s
  | .cmpAbx a => Sys2Proof.Machine.execCmpAbx a s
  | .cmpAby a => Sys2Proof.Machine.execCmpAby a s
  | .cmpIzx b => Sys2Proof.Machine.execCmpIzx b s
  | .cmpIzy b => Sys2Proof.Machine.execCmpIzy b s
  | .cpxImm b => Sys2Proof.Machine.execCpxImm b s
  | .cpxZp b => Sys2Proof.Machine.execCpxZp b s
  | .cpxAbs a => Sys2Proof.Machine.execCpxAbs a s
  | .cpyImm b => Sys2Proof.Machine.execCpyImm b s
  | .cpyZp b => Sys2Proof.Machine.execCpyZp b s
  | .cpyAbs a => Sys2Proof.Machine.execCpyAbs a s
  -- 44_logic.md
  | .andImm b => Sys2Proof.Machine.execAndImm b s
  | .andZp b => Sys2Proof.Machine.execAndZp b s
  | .andZpx b => Sys2Proof.Machine.execAndZpx b s
  | .andAbs a => Sys2Proof.Machine.execAndAbs a s
  | .andAbx a => Sys2Proof.Machine.execAndAbx a s
  | .andAby a => Sys2Proof.Machine.execAndAby a s
  | .andIzx b => Sys2Proof.Machine.execAndIzx b s
  | .andIzy b => Sys2Proof.Machine.execAndIzy b s
  | .eorImm b => Sys2Proof.Machine.execEorImm b s
  | .eorZp b => Sys2Proof.Machine.execEorZp b s
  | .eorZpx b => Sys2Proof.Machine.execEorZpx b s
  | .eorAbs a => Sys2Proof.Machine.execEorAbs a s
  | .eorAbx a => Sys2Proof.Machine.execEorAbx a s
  | .eorAby a => Sys2Proof.Machine.execEorAby a s
  | .eorIzx b => Sys2Proof.Machine.execEorIzx b s
  | .eorIzy b => Sys2Proof.Machine.execEorIzy b s
  | .oraImm b => Sys2Proof.Machine.execOraImm b s
  | .oraZp b => Sys2Proof.Machine.execOraZp b s
  | .oraZpx b => Sys2Proof.Machine.execOraZpx b s
  | .oraAbs a => Sys2Proof.Machine.execOraAbs a s
  | .oraAbx a => Sys2Proof.Machine.execOraAbx a s
  | .oraAby a => Sys2Proof.Machine.execOraAby a s
  | .oraIzx b => Sys2Proof.Machine.execOraIzx b s
  | .oraIzy b => Sys2Proof.Machine.execOraIzy b s
  | .bitZp b => Sys2Proof.Machine.execBitZp b s
  | .bitAbs a => Sys2Proof.Machine.execBitAbs a s
  -- 45_shift_rotate.md
  | .aslAcc => Sys2Proof.Machine.execAslAcc s
  | .aslZp b => Sys2Proof.Machine.execAslZp b s
  | .aslZpx b => Sys2Proof.Machine.execAslZpx b s
  | .aslAbs a => Sys2Proof.Machine.execAslAbs a s
  | .aslAbx a => Sys2Proof.Machine.execAslAbx a s
  | .lsrAcc => Sys2Proof.Machine.execLsrAcc s
  | .lsrZp b => Sys2Proof.Machine.execLsrZp b s
  | .lsrZpx b => Sys2Proof.Machine.execLsrZpx b s
  | .lsrAbs a => Sys2Proof.Machine.execLsrAbs a s
  | .lsrAbx a => Sys2Proof.Machine.execLsrAbx a s
  | .rolAcc => Sys2Proof.Machine.execRolAcc s
  | .rolZp b => Sys2Proof.Machine.execRolZp b s
  | .rolZpx b => Sys2Proof.Machine.execRolZpx b s
  | .rolAbs a => Sys2Proof.Machine.execRolAbs a s
  | .rolAbx a => Sys2Proof.Machine.execRolAbx a s
  | .rorAcc => Sys2Proof.Machine.execRorAcc s
  | .rorZp b => Sys2Proof.Machine.execRorZp b s
  | .rorZpx b => Sys2Proof.Machine.execRorZpx b s
  | .rorAbs a => Sys2Proof.Machine.execRorAbs a s
  | .rorAbx a => Sys2Proof.Machine.execRorAbx a s
  -- 46_inc_dec.md
  | .incZp b => Sys2Proof.Machine.execIncZp b s
  | .incZpx b => Sys2Proof.Machine.execIncZpx b s
  | .incAbs a => Sys2Proof.Machine.execIncAbs a s
  | .incAbx a => Sys2Proof.Machine.execIncAbx a s
  | .inx => Sys2Proof.Machine.execInx s
  | .iny => Sys2Proof.Machine.execIny s
  | .decZp b => Sys2Proof.Machine.execDecZp b s
  | .decZpx b => Sys2Proof.Machine.execDecZpx b s
  | .decAbs a => Sys2Proof.Machine.execDecAbs a s
  | .decAbx a => Sys2Proof.Machine.execDecAbx a s
  | .dex => Sys2Proof.Machine.execDex s
  | .dey => Sys2Proof.Machine.execDey s
  -- 47_branch.md
  | .bcc b => Sys2Proof.Machine.execBcc b s
  | .bcs b => Sys2Proof.Machine.execBcs b s
  | .beq b => Sys2Proof.Machine.execBeq b s
  | .bmi b => Sys2Proof.Machine.execBmi b s
  | .bne b => Sys2Proof.Machine.execBne b s
  | .bpl b => Sys2Proof.Machine.execBpl b s
  | .bvc b => Sys2Proof.Machine.execBvc b s
  | .bvs b => Sys2Proof.Machine.execBvs b s
  -- 48_jump_subroutine.md
  | .jmpAbs a => Sys2Proof.Machine.execJmpAbs a s
  | .jmpInd a => Sys2Proof.Machine.execJmpInd a s
  | .jsr a => Sys2Proof.Machine.execJsr a s
  | .rts => Sys2Proof.Machine.execRts s
  -- 49_flag_system.md
  | .clc => Sys2Proof.Machine.execClc s
  | .cld => Sys2Proof.Machine.execCld s
  | .cli => Sys2Proof.Machine.execCli s
  | .clv => Sys2Proof.Machine.execClv s
  | .sec => Sys2Proof.Machine.execSec s
  | .sed => Sys2Proof.Machine.execSed s
  | .sei => Sys2Proof.Machine.execSei s
  | .nop => Sys2Proof.Machine.execNop s
  | .brk => Sys2Proof.Machine.execBrk s
  | .rti => Sys2Proof.Machine.execRti s
  -- 30_encoding.md R97
  | .reserved op => Sys2Proof.Machine.execReserved op s

end Sys2Proof.Machine
end

