-- ==== Sys2Proof/Machine/Events.lean ====
section
/-! DEFINITION. The request inputs and the order in which a boundary serves them (60_exceptions.md R247 to R251). -/

namespace Sys2Proof.Machine

/-- The inputs at an instruction boundary (R250): the platform's next sample drives the levels, and an edge of the
non-maskable input is latched until it is served (R249). Where the platform drives nothing more, the levels stay. -/
def sampleInputs (s : State) : State :=
  match s.inputs with
  | [] => s
  | i :: rest =>
    { s with
      inputs := rest
      resetLine := i.reset
      irq := i.irq
      nmiPending := s.nmiPending || i.nmiEdge }

/-- The event a boundary serves instead of an instruction: RESET first, then NMI, then IRQ, which I masks (R250, R251). -/
def pendingEvent (s : State) : Option HardwareEvent :=
  if s.resetLine then some .reset
  else if s.nmiPending then some .nmi
  else if s.irq && !s.p.i then some .irq
  else none

/-- What serving an event does (R245, R249, R281). -/
def serveEvent (e : HardwareEvent) (s : State) : Except Refusal State :=
  match e with
  | .reset => resetEvent s
  | .nmi => takeInterrupt .nmi { s with nmiPending := false }
  | .irq => takeInterrupt .irq s

end Sys2Proof.Machine
end

