-- ==== Sys2Proof/Machine/Fetch.lean ====
section
/-! DEFINITION. Fetching the instruction at PC (00_scope.md R8, 20_memory.md R57): the opcode byte, then the operand bytes its
format has, each an ordinary read, at addresses modulo 65536 (10_state.md R15). -/

namespace Sys2Proof.Machine

/-- The instruction at PC. Of a reserved opcode only the opcode byte is read (R97, U1). -/
def fetchInstr (s : State) : Except Refusal (Instr × State) := do
  let pc := s.pc
  let (op, s) ← readByte pc s
  match cellOf s.par.hasRor op with
  | .f1 i => pure (i, s)
  | .f2 mk =>
    let (b1, s) ← readByte (pc + 1) s
    pure (mk b1, s)
  | .f3 mk =>
    let (b1, s) ← readByte (pc + 1) s
    let (b2, s) ← readByte (pc + 2) s
    pure (mk (wordOf b2 b1), s)
  | .future => pure (.reserved op, s)

/-- The state with an instruction's bytes placed in memory at PC from outside the machine, and with nothing in the way of
the fetch: no request at the coming boundary, plain memory at every address, and a part that has every opcode. -/
def placeAtPc (bytes : List Byte) (s : State) : State :=
  let put := bytes.zipIdx.foldl (fun m p => m.write (s.pc + BitVec.ofNat 16 p.2).toNat p.1) s.mem
  { s with
    mem := put
    irq := false
    nmiPending := false
    resetLine := false
    inputs := []
    par := { s.par with memoryMap := [], ioRegions := [], hasRor := true } }

end Sys2Proof.Machine
end

