-- ==== Sys2Proof/Machine/Step.lean ====
section
/-! DEFINITION. One step of the machine (60_exceptions.md R250, 00_scope.md R8). -/

namespace Sys2Proof.Machine

/-- One step: sample the inputs once; serve the event they ask for, or else fetch the instruction at PC and execute it. -/
def step (s : State) : Host.Outcome State Fault Refusal :=
  let s := sampleInputs s
  match pendingEvent s with
  | some e => outcome (serveEvent e s)
  | none =>
    match fetchInstr s with
    | .ok (i, s) => exec i s
    | .error r => .refused r

/-- `s` with the instruction whose opcode_table.json number is `w` at PC, so that the next step runs it. -/
def State.withFetchWord (s : State) (nbits w : Nat) : State :=
  placeAtPc (tableBytes nbits w) s

end Sys2Proof.Machine
end

