-- ==== Sys2Proof/Machine/Listing.lean ====
section
/-! DEFINITION. The assembler's side of 30_encoding.md: the mnemonic and the operand form of every instruction (R95), the
spelling of R100, the zero-page preference of R101 and the branch operand of R102. No meaning depends on these. -/

namespace Sys2Proof.Machine

/-- The mnemonic of an instruction, as opcode_table.json has it. -/
def mnemonic (i : Instr) : String :=
  match i with
  | .ldaImm _ | .ldaZp _ | .ldaZpx _ | .ldaAbs _ | .ldaAbx _ | .ldaAby _ | .ldaIzx _ | .ldaIzy _ => "LDA"
  | .ldxImm _ | .ldxZp _ | .ldxZpy _ | .ldxAbs _ | .ldxAby _ => "LDX"
  | .ldyImm _ | .ldyZp _ | .ldyZpx _ | .ldyAbs _ | .ldyAbx _ => "LDY"
  | .staZp _ | .staZpx _ | .staAbs _ | .staAbx _ | .staAby _ | .staIzx _ | .staIzy _ => "STA"
  | .stxZp _ | .stxZpy _ | .stxAbs _ => "STX"
  | .styZp _ | .styZpx _ | .styAbs _ => "STY"
  | .tax => "TAX"
  | .tay => "TAY"
  | .tsx => "TSX"
  | .txa => "TXA"
  | .txs => "TXS"
  | .tya => "TYA"
  | .pha => "PHA"
  | .php => "PHP"
  | .pla => "PLA"
  | .plp => "PLP"
  | .adcImm _ | .adcZp _ | .adcZpx _ | .adcAbs _ | .adcAbx _ | .adcAby _ | .adcIzx _ | .adcIzy _ => "ADC"
  | .sbcImm _ | .sbcZp _ | .sbcZpx _ | .sbcAbs _ | .sbcAbx _ | .sbcAby _ | .sbcIzx _ | .sbcIzy _ => "SBC"
  | .cmpImm _ | .cmpZp _ | .cmpZpx _ | .cmpAbs _ | .cmpAbx _ | .cmpAby _ | .cmpIzx _ | .cmpIzy _ => "CMP"
  | .cpxImm _ | .cpxZp _ | .cpxAbs _ => "CPX"
  | .cpyImm _ | .cpyZp _ | .cpyAbs _ => "CPY"
  | .andImm _ | .andZp _ | .andZpx _ | .andAbs _ | .andAbx _ | .andAby _ | .andIzx _ | .andIzy _ => "AND"
  | .eorImm _ | .eorZp _ | .eorZpx _ | .eorAbs _ | .eorAbx _ | .eorAby _ | .eorIzx _ | .eorIzy _ => "EOR"
  | .oraImm _ | .oraZp _ | .oraZpx _ | .oraAbs _ | .oraAbx _ | .oraAby _ | .oraIzx _ | .oraIzy _ => "ORA"
  | .bitZp _ | .bitAbs _ => "BIT"
  | .aslAcc | .aslZp _ | .aslZpx _ | .aslAbs _ | .aslAbx _ => "ASL"
  | .lsrAcc | .lsrZp _ | .lsrZpx _ | .lsrAbs _ | .lsrAbx _ => "LSR"
  | .rolAcc | .rolZp _ | .rolZpx _ | .rolAbs _ | .rolAbx _ => "ROL"
  | .rorAcc | .rorZp _ | .rorZpx _ | .rorAbs _ | .rorAbx _ => "ROR"
  | .incZp _ | .incZpx _ | .incAbs _ | .incAbx _ => "INC"
  | .inx => "INX"
  | .iny => "INY"
  | .decZp _ | .decZpx _ | .decAbs _ | .decAbx _ => "DEC"
  | .dex => "DEX"
  | .dey => "DEY"
  | .bcc _ => "BCC"
  | .bcs _ => "BCS"
  | .beq _ => "BEQ"
  | .bmi _ => "BMI"
  | .bne _ => "BNE"
  | .bpl _ => "BPL"
  | .bvc _ => "BVC"
  | .bvs _ => "BVS"
  | .jmpAbs _ | .jmpInd _ => "JMP"
  | .jsr _ => "JSR"
  | .rts => "RTS"
  | .clc => "CLC"
  | .cld => "CLD"
  | .cli => "CLI"
  | .clv => "CLV"
  | .sec => "SEC"
  | .sed => "SED"
  | .sei => "SEI"
  | .nop => "NOP"
  | .brk => "BRK"
  | .rti => "RTI"
  | .reserved _ => "RESERVED"

/-- The operand form of an instruction (R73); a reserved opcode has none (R97). -/
def formOf (i : Instr) : Option Form :=
  match i with
  | .tax | .tay | .tsx | .txa | .txs | .tya | .pha | .php
  | .pla | .plp | .inx | .iny | .dex | .dey | .rts | .clc
  | .cld | .cli | .clv | .sec | .sed | .sei | .nop | .brk
  | .rti => some .imp
  | .aslAcc | .lsrAcc | .rolAcc | .rorAcc => some .acc
  | .ldaImm _ | .ldxImm _ | .ldyImm _ | .adcImm _ | .sbcImm _ | .cmpImm _ | .cpxImm _ | .cpyImm _
  | .andImm _ | .eorImm _ | .oraImm _ => some .imm
  | .ldaZp _ | .ldxZp _ | .ldyZp _ | .staZp _ | .stxZp _ | .styZp _ | .adcZp _ | .sbcZp _
  | .cmpZp _ | .cpxZp _ | .cpyZp _ | .andZp _ | .eorZp _ | .oraZp _ | .bitZp _ | .aslZp _
  | .lsrZp _ | .rolZp _ | .rorZp _ | .incZp _ | .decZp _ => some .zp
  | .ldaZpx _ | .ldyZpx _ | .staZpx _ | .styZpx _ | .adcZpx _ | .sbcZpx _ | .cmpZpx _ | .andZpx _
  | .eorZpx _ | .oraZpx _ | .aslZpx _ | .lsrZpx _ | .rolZpx _ | .rorZpx _ | .incZpx _ | .decZpx _ => some .zpx
  | .ldxZpy _ | .stxZpy _ => some .zpy
  | .ldaAbs _ | .ldxAbs _ | .ldyAbs _ | .staAbs _ | .stxAbs _ | .styAbs _ | .adcAbs _ | .sbcAbs _
  | .cmpAbs _ | .cpxAbs _ | .cpyAbs _ | .andAbs _ | .eorAbs _ | .oraAbs _ | .bitAbs _ | .aslAbs _
  | .lsrAbs _ | .rolAbs _ | .rorAbs _ | .incAbs _ | .decAbs _ | .jmpAbs _ | .jsr _ => some .abs
  | .ldaAbx _ | .ldyAbx _ | .staAbx _ | .adcAbx _ | .sbcAbx _ | .cmpAbx _ | .andAbx _ | .eorAbx _
  | .oraAbx _ | .aslAbx _ | .lsrAbx _ | .rolAbx _ | .rorAbx _ | .incAbx _ | .decAbx _ => some .abx
  | .ldaAby _ | .ldxAby _ | .staAby _ | .adcAby _ | .sbcAby _ | .cmpAby _ | .andAby _ | .eorAby _
  | .oraAby _ => some .aby
  | .jmpInd _ => some .ind
  | .ldaIzx _ | .staIzx _ | .adcIzx _ | .sbcIzx _ | .cmpIzx _ | .andIzx _ | .eorIzx _ | .oraIzx _ => some .izx
  | .ldaIzy _ | .staIzy _ | .adcIzy _ | .sbcIzy _ | .cmpIzy _ | .andIzy _ | .eorIzy _ | .oraIzy _ => some .izy
  | .bcc _ | .bcs _ | .beq _ | .bmi _ | .bne _ | .bpl _ | .bvc _ | .bvs _ => some .rel
  | .reserved _ => none

/-- The memory operand of an instruction that reads, stores or modifies a byte of memory through one of the forms of R77 to R82,
R84 and R85. -/
def memFormOf (i : Instr) : Option MemForm :=
  match i with
  | .ldaZp b | .ldxZp b | .ldyZp b | .staZp b | .stxZp b | .styZp b | .adcZp b | .sbcZp b | .cmpZp b | .cpxZp b
  | .cpyZp b | .andZp b | .eorZp b | .oraZp b | .bitZp b | .aslZp b | .lsrZp b | .rolZp b | .rorZp b | .incZp b
  | .decZp b => some (.zp b)
  | .ldaZpx b | .ldyZpx b | .staZpx b | .styZpx b | .adcZpx b | .sbcZpx b | .cmpZpx b | .andZpx b | .eorZpx b
  | .oraZpx b | .aslZpx b | .lsrZpx b | .rolZpx b | .rorZpx b | .incZpx b | .decZpx b => some (.zpx b)
  | .ldxZpy b | .stxZpy b => some (.zpy b)
  | .ldaAbs a | .ldxAbs a | .ldyAbs a | .staAbs a | .stxAbs a | .styAbs a | .adcAbs a | .sbcAbs a | .cmpAbs a
  | .cpxAbs a | .cpyAbs a | .andAbs a | .eorAbs a | .oraAbs a | .bitAbs a | .aslAbs a | .lsrAbs a | .rolAbs a
  | .rorAbs a | .incAbs a | .decAbs a => some (.abs a)
  | .ldaAbx a | .ldyAbx a | .staAbx a | .adcAbx a | .sbcAbx a | .cmpAbx a | .andAbx a | .eorAbx a | .oraAbx a
  | .aslAbx a | .lsrAbx a | .rolAbx a | .rorAbx a | .incAbx a | .decAbx a => some (.abx a)
  | .ldaAby a | .ldxAby a | .staAby a | .adcAby a | .sbcAby a | .cmpAby a | .andAby a | .eorAby a | .oraAby a => some (.aby a)
  | .ldaIzx b | .staIzx b | .adcIzx b | .sbcIzx b | .cmpIzx b | .andIzx b | .eorIzx b | .oraIzx b => some (.izx b)
  | .ldaIzy b | .staIzy b | .adcIzy b | .sbcIzy b | .cmpIzy b | .andIzy b | .eorIzy b | .oraIzy b => some (.izy b)
  | .ldaImm _ | .ldxImm _ | .ldyImm _ | .tax | .tay | .tsx | .txa | .txs | .tya | .pha | .php | .pla | .plp
  | .adcImm _ | .sbcImm _ | .cmpImm _ | .cpxImm _ | .cpyImm _ | .andImm _ | .eorImm _ | .oraImm _ | .aslAcc
  | .lsrAcc | .rolAcc | .rorAcc | .inx | .iny | .dex | .dey | .bcc _ | .bcs _ | .beq _ | .bmi _ | .bne _
  | .bpl _ | .bvc _ | .bvs _ | .jmpAbs _ | .jmpInd _ | .jsr _ | .rts | .clc | .cld | .cli | .clv | .sec | .sed
  | .sei | .nop | .brk | .rti | .reserved _ => none

/-- The length an operand form gives its instructions (R70, R71). -/
def formLength (f : Form) : Nat :=
  match f with
  | .imp | .acc => 1
  | .imm | .zp | .zpx | .zpy | .izx | .izy | .rel => 2
  | .abs | .abx | .aby | .ind => 3

/-- A hexadecimal digit. -/
def hexDigit (n : Nat) : Char :=
  if n < 10 then Char.ofNat (48 + n) else Char.ofNat (55 + n)

/-- A byte as two hexadecimal digits. -/
def hexByte (b : Byte) : List Char := [hexDigit (b.toNat / 16), hexDigit (b.toNat % 16)]

/-- The operand bytes of an instruction as the number the assembler writes, high byte first, after a `$` (R100). -/
def operandText (i : Instr) : List Char :=
  '$' :: ((encode i).tail.reverse.flatMap hexByte)

/-- The spelling of an instruction's operand (R100). The operand of a branch is its displacement byte, as the source writes
it (R102). -/
def operandSpelling (i : Instr) : List Char :=
  match formOf i with
  | none => []
  | some .imp => []
  | some .acc => [' ', 'A']
  | some .imm => [' ', '#'] ++ operandText i
  | some .zp | some .abs | some .rel => ' ' :: operandText i
  | some .zpx | some .abx => [' '] ++ operandText i ++ [',', 'X']
  | some .zpy | some .aby => [' '] ++ operandText i ++ [',', 'Y']
  | some .ind => [' ', '('] ++ operandText i ++ [')']
  | some .izx => [' ', '('] ++ operandText i ++ [',', 'X', ')']
  | some .izy => [' ', '('] ++ operandText i ++ [')', ',', 'Y']

/-- The assembler statement of an instruction (R100). -/
def assemblerText (i : Instr) : List Char := (mnemonic i).toList ++ operandSpelling i

/-- The displacement byte an assembler computes for a branch at `pc` to `target` under the two's complement encoding; none
where the target is out of reach (R102). -/
def displacementTo (pc target : Word) : Option Byte :=
  let d := target - (pc + 2)
  if (d.setWidth 8).signExtend 16 = d then some (d.setWidth 8) else none

/-- The instruction an assembler writes instead where the operand is in the zero page and the mnemonic has the zero-page form
(R101). -/
def zeroPageTwin (i : Instr) : Option Instr :=
  match i with
  | .ldaAbs a => if hiByte a = 0 then some (.ldaZp (loByte a)) else none
  | .ldaAbx a => if hiByte a = 0 then some (.ldaZpx (loByte a)) else none
  | .ldxAbs a => if hiByte a = 0 then some (.ldxZp (loByte a)) else none
  | .ldxAby a => if hiByte a = 0 then some (.ldxZpy (loByte a)) else none
  | .ldyAbs a => if hiByte a = 0 then some (.ldyZp (loByte a)) else none
  | .ldyAbx a => if hiByte a = 0 then some (.ldyZpx (loByte a)) else none
  | .staAbs a => if hiByte a = 0 then some (.staZp (loByte a)) else none
  | .staAbx a => if hiByte a = 0 then some (.staZpx (loByte a)) else none
  | .stxAbs a => if hiByte a = 0 then some (.stxZp (loByte a)) else none
  | .styAbs a => if hiByte a = 0 then some (.styZp (loByte a)) else none
  | .adcAbs a => if hiByte a = 0 then some (.adcZp (loByte a)) else none
  | .adcAbx a => if hiByte a = 0 then some (.adcZpx (loByte a)) else none
  | .sbcAbs a => if hiByte a = 0 then some (.sbcZp (loByte a)) else none
  | .sbcAbx a => if hiByte a = 0 then some (.sbcZpx (loByte a)) else none
  | .cmpAbs a => if hiByte a = 0 then some (.cmpZp (loByte a)) else none
  | .cmpAbx a => if hiByte a = 0 then some (.cmpZpx (loByte a)) else none
  | .cpxAbs a => if hiByte a = 0 then some (.cpxZp (loByte a)) else none
  | .cpyAbs a => if hiByte a = 0 then some (.cpyZp (loByte a)) else none
  | .andAbs a => if hiByte a = 0 then some (.andZp (loByte a)) else none
  | .andAbx a => if hiByte a = 0 then some (.andZpx (loByte a)) else none
  | .eorAbs a => if hiByte a = 0 then some (.eorZp (loByte a)) else none
  | .eorAbx a => if hiByte a = 0 then some (.eorZpx (loByte a)) else none
  | .oraAbs a => if hiByte a = 0 then some (.oraZp (loByte a)) else none
  | .oraAbx a => if hiByte a = 0 then some (.oraZpx (loByte a)) else none
  | .bitAbs a => if hiByte a = 0 then some (.bitZp (loByte a)) else none
  | .aslAbs a => if hiByte a = 0 then some (.aslZp (loByte a)) else none
  | .aslAbx a => if hiByte a = 0 then some (.aslZpx (loByte a)) else none
  | .lsrAbs a => if hiByte a = 0 then some (.lsrZp (loByte a)) else none
  | .lsrAbx a => if hiByte a = 0 then some (.lsrZpx (loByte a)) else none
  | .rolAbs a => if hiByte a = 0 then some (.rolZp (loByte a)) else none
  | .rolAbx a => if hiByte a = 0 then some (.rolZpx (loByte a)) else none
  | .rorAbs a => if hiByte a = 0 then some (.rorZp (loByte a)) else none
  | .rorAbx a => if hiByte a = 0 then some (.rorZpx (loByte a)) else none
  | .incAbs a => if hiByte a = 0 then some (.incZp (loByte a)) else none
  | .incAbx a => if hiByte a = 0 then some (.incZpx (loByte a)) else none
  | .decAbs a => if hiByte a = 0 then some (.decZp (loByte a)) else none
  | .decAbx a => if hiByte a = 0 then some (.decZpx (loByte a)) else none
  | .ldaImm _ | .ldaZp _ | .ldaZpx _ | .ldaAby _ | .ldaIzx _ | .ldaIzy _ | .ldxImm _ | .ldxZp _
  | .ldxZpy _ | .ldyImm _ | .ldyZp _ | .ldyZpx _ | .staZp _ | .staZpx _ | .staAby _ | .staIzx _
  | .staIzy _ | .stxZp _ | .stxZpy _ | .styZp _ | .styZpx _ | .tax | .tay | .tsx
  | .txa | .txs | .tya | .pha | .php | .pla | .plp | .adcImm _
  | .adcZp _ | .adcZpx _ | .adcAby _ | .adcIzx _ | .adcIzy _ | .sbcImm _ | .sbcZp _ | .sbcZpx _
  | .sbcAby _ | .sbcIzx _ | .sbcIzy _ | .cmpImm _ | .cmpZp _ | .cmpZpx _ | .cmpAby _ | .cmpIzx _
  | .cmpIzy _ | .cpxImm _ | .cpxZp _ | .cpyImm _ | .cpyZp _ | .andImm _ | .andZp _ | .andZpx _
  | .andAby _ | .andIzx _ | .andIzy _ | .eorImm _ | .eorZp _ | .eorZpx _ | .eorAby _ | .eorIzx _
  | .eorIzy _ | .oraImm _ | .oraZp _ | .oraZpx _ | .oraAby _ | .oraIzx _ | .oraIzy _ | .bitZp _
  | .aslAcc | .aslZp _ | .aslZpx _ | .lsrAcc | .lsrZp _ | .lsrZpx _ | .rolAcc | .rolZp _
  | .rolZpx _ | .rorAcc | .rorZp _ | .rorZpx _ | .incZp _ | .incZpx _ | .inx | .iny
  | .decZp _ | .decZpx _ | .dex | .dey | .bcc _ | .bcs _ | .beq _ | .bmi _
  | .bne _ | .bpl _ | .bvc _ | .bvs _ | .jmpAbs _ | .jmpInd _ | .jsr _ | .rts
  | .clc | .cld | .cli | .clv | .sec | .sed | .sei | .nop
  | .brk | .rti | .reserved _ => none

end Sys2Proof.Machine
end

