-- ==== Sys2Proof/Machine/Timing.lean ====
section
/-! DEFINITION. Cycle counts (70_reset_and_hazards.md R295, R296; 30_encoding.md R89; 47_branch.md R204): timing that no rule
depends on, as a function of the instruction and the state before it. The state has no counter of them (D21). -/

namespace Sys2Proof.Machine

/-- Does indexing cross a page (R89)? -/
def pageCrossed (base : Word) (index : Byte) : Bool :=
  hiByte (base + index.zeroExtend 16) != hiByte base

/-- A count with "+p": 1 more where the index crosses a page (R295). -/
def cyclesIndexed (count : Nat) (base : Word) (index : Byte) : Option Nat :=
  some (if pageCrossed base index then count + 1 else count)

/-- The count of a reading instruction with form `izy`, 5+p; none where its pointer cannot be read. -/
def cyclesIzy (b : Byte) (s : State) : Option Nat :=
  match read16zp b s with
  | .ok (base, _) => cyclesIndexed 5 base s.y
  | .error _ => none

/-- The count of a branch (R204): 2 not taken, 3 taken in the page of `npc`, 4 taken to another. -/
def cyclesBranch (taken : Bool) (b : Byte) (s : State) : Option Nat :=
  if !taken then some 2
  else if hiByte (branchTarget s.par.relOffset s.pc b) == hiByte (s.pc + 2) then some 3
  else some 4

/-- The cycles of an instruction in a state (R295); a reserved opcode has none. -/
def instrCycles (i : Instr) (s : State) : Option Nat :=
  match i with
  -- 40_load_store.md
  | .ldaImm _ => some 2
  | .ldaZp _ => some 3
  | .ldaZpx _ => some 4
  | .ldaAbs _ => some 4
  | .ldaAbx a => cyclesIndexed 4 a s.x
  | .ldaAby a => cyclesIndexed 4 a s.y
  | .ldaIzx _ => some 6
  | .ldaIzy b => cyclesIzy b s
  | .ldxImm _ => some 2
  | .ldxZp _ => some 3
  | .ldxZpy _ => some 4
  | .ldxAbs _ => some 4
  | .ldxAby a => cyclesIndexed 4 a s.y
  | .ldyImm _ => some 2
  | .ldyZp _ => some 3
  | .ldyZpx _ => some 4
  | .ldyAbs _ => some 4
  | .ldyAbx a => cyclesIndexed 4 a s.x
  | .staZp _ => some 3
  | .staZpx _ => some 4
  | .staAbs _ => some 4
  | .staAbx _ => some 5
  | .staAby _ => some 5
  | .staIzx _ => some 6
  | .staIzy _ => some 6
  | .stxZp _ => some 3
  | .stxZpy _ => some 4
  | .stxAbs _ => some 4
  | .styZp _ => some 3
  | .styZpx _ => some 4
  | .styAbs _ => some 4
  -- 41_transfer.md
  | .tax => some 2
  | .tay => some 2
  | .tsx => some 2
  | .txa => some 2
  | .txs => some 2
  | .tya => some 2
  -- 42_stack.md
  | .pha => some 3
  | .php => some 3
  | .pla => some 4
  | .plp => some 4
  -- 43_arithmetic.md
  | .adcImm _ => some 2
  | .adcZp _ => some 3
  | .adcZpx _ => some 4
  | .adcAbs _ => some 4
  | .adcAbx a => cyclesIndexed 4 a s.x
  | .adcAby a => cyclesIndexed 4 a s.y
  | .adcIzx _ => some 6
  | .adcIzy b => cyclesIzy b s
  | .sbcImm _ => some 2
  | .sbcZp _ => some 3
  | .sbcZpx _ => some 4
  | .sbcAbs _ => some 4
  | .sbcAbx a => cyclesIndexed 4 a s.x
  | .sbcAby a => cyclesIndexed 4 a s.y
  | .sbcIzx _ => some 6
  | .sbcIzy b => cyclesIzy b s
  | .cmpImm _ => some 2
  | .cmpZp _ => some 3
  | .cmpZpx _ => some 4
  | .cmpAbs _ => some 4
  | .cmpAbx a => cyclesIndexed 4 a s.x
  | .cmpAby a => cyclesIndexed 4 a s.y
  | .cmpIzx _ => some 6
  | .cmpIzy b => cyclesIzy b s
  | .cpxImm _ => some 2
  | .cpxZp _ => some 3
  | .cpxAbs _ => some 4
  | .cpyImm _ => some 2
  | .cpyZp _ => some 3
  | .cpyAbs _ => some 4
  -- 44_logic.md
  | .andImm _ => some 2
  | .andZp _ => some 3
  | .andZpx _ => some 4
  | .andAbs _ => some 4
  | .andAbx a => cyclesIndexed 4 a s.x
  | .andAby a => cyclesIndexed 4 a s.y
  | .andIzx _ => some 6
  | .andIzy b => cyclesIzy b s
  | .eorImm _ => some 2
  | .eorZp _ => some 3
  | .eorZpx _ => some 4
  | .eorAbs _ => some 4
  | .eorAbx a => cyclesIndexed 4 a s.x
  | .eorAby a => cyclesIndexed 4 a s.y
  | .eorIzx _ => some 6
  | .eorIzy b => cyclesIzy b s
  | .oraImm _ => some 2
  | .oraZp _ => some 3
  | .oraZpx _ => some 4
  | .oraAbs _ => some 4
  | .oraAbx a => cyclesIndexed 4 a s.x
  | .oraAby a => cyclesIndexed 4 a s.y
  | .oraIzx _ => some 6
  | .oraIzy b => cyclesIzy b s
  | .bitZp _ => some 3
  | .bitAbs _ => some 4
  -- 45_shift_rotate.md
  | .aslAcc => some 2
  | .aslZp _ => some 5
  | .aslZpx _ => some 6
  | .aslAbs _ => some 6
  | .aslAbx _ => some 7
  | .lsrAcc => some 2
  | .lsrZp _ => some 5
  | .lsrZpx _ => some 6
  | .lsrAbs _ => some 6
  | .lsrAbx _ => some 7
  | .rolAcc => some 2
  | .rolZp _ => some 5
  | .rolZpx _ => some 6
  | .rolAbs _ => some 6
  | .rolAbx _ => some 7
  | .rorAcc => some 2
  | .rorZp _ => some 5
  | .rorZpx _ => some 6
  | .rorAbs _ => some 6
  | .rorAbx _ => some 7
  -- 46_inc_dec.md
  | .incZp _ => some 5
  | .incZpx _ => some 6
  | .incAbs _ => some 6
  | .incAbx _ => some 7
  | .inx => some 2
  | .iny => some 2
  | .decZp _ => some 5
  | .decZpx _ => some 6
  | .decAbs _ => some 6
  | .decAbx _ => some 7
  | .dex => some 2
  | .dey => some 2
  -- 47_branch.md
  | .bcc b => cyclesBranch (!s.p.c) b s
  | .bcs b => cyclesBranch s.p.c b s
  | .beq b => cyclesBranch s.p.z b s
  | .bmi b => cyclesBranch s.p.n b s
  | .bne b => cyclesBranch (!s.p.z) b s
  | .bpl b => cyclesBranch (!s.p.n) b s
  | .bvc b => cyclesBranch (!s.p.v) b s
  | .bvs b => cyclesBranch s.p.v b s
  -- 48_jump_subroutine.md
  | .jmpAbs _ => some 3
  | .jmpInd _ => some 5
  | .jsr _ => some 6
  | .rts => some 6
  -- 49_flag_system.md
  | .clc => some 2
  | .cld => some 2
  | .cli => some 2
  | .clv => some 2
  | .sec => some 2
  | .sed => some 2
  | .sei => some 2
  | .nop => some 2
  | .brk => some 7
  | .rti => some 6
  | .reserved _ => none

/-- The cycles of serving an event: 7 each (R296). -/
def eventCycles : Nat := 7

end Sys2Proof.Machine
end

