-- ==== Sys2Proof/Machine/Launch.lean ====
section
/-! DEFINITION. The launch states of the model (70_reset_and_hazards.md R283, parameter `RESET_STATE`): what a run may start from,
as a condition on states (`State.IsLaunch`) and as the state a launch makes of a state (`launchState`). -/

namespace Sys2Proof.Machine

/-- The program image and the data a claim names (R283 (a)): addresses with their bytes. -/
abbrev Image := List (Word × Byte)

/-- A stated entry point (R283 (b)): the address, and the registers and flags the claim lists with their values. -/
structure Entry where
  pc : Word
  a : Option Byte
  x : Option Byte
  y : Option Byte
  sp : Option Byte
  n : Option Bool
  v : Option Bool
  b : Option Bool
  d : Option Bool
  i : Option Bool
  z : Option Bool
  c : Option Bool
  deriving DecidableEq, Repr

/-- The two kinds of launch (R283 (b)). -/
inductive Launch where
  | fromReset
  | fromEntry (e : Entry)
  deriving DecidableEq, Repr

/-- Memory holds the image; of every other byte nothing is said (R283 (a)). -/
def State.Holds (s : State) (image : Image) : Prop :=
  ∀ p ∈ image, s.mem.read p.1.toNat = p.2

/-- PC is the stated address, and what the claim lists has the listed value; of the rest nothing is said (R283 (b)). -/
def State.EnteredAt (s : State) (e : Entry) : Prop :=
  s.pc = e.pc ∧
    (∀ v ∈ e.a, s.a = v) ∧ (∀ v ∈ e.x, s.x = v) ∧ (∀ v ∈ e.y, s.y = v) ∧ (∀ v ∈ e.sp, s.sp = v) ∧
    (∀ f ∈ e.n, s.p.n = f) ∧ (∀ f ∈ e.v, s.p.v = f) ∧ (∀ f ∈ e.b, s.p.b = f) ∧ (∀ f ∈ e.d, s.p.d = f) ∧
    (∀ f ∈ e.i, s.p.i = f) ∧ (∀ f ∈ e.z, s.p.z = f) ∧ (∀ f ∈ e.c, s.p.c = f)

/-- The conditions (a) to (c) of R283. From reset, the vector's two bytes are part of the image, PC is the word they hold
and I is 1. -/
def State.IsLaunch (s : State) (l : Launch) (image : Image) : Prop :=
  s.Holds image ∧ s.nmiPending = false ∧
    match l with
    | .fromReset =>
      Config.vecReset ∈ image.map Prod.fst ∧ Config.vecReset + 1 ∈ image.map Prod.fst ∧ s.p.i = true ∧
        s.pc = wordOf (s.mem.read (Config.vecReset + 1).toNat) (s.mem.read Config.vecReset.toNat)
    | .fromEntry e => s.EnteredAt e

/-- The memory with the image in it, placed from outside the machine: ROM holds its part like RAM (R282). -/
def Memory.place (image : Image) (m : Memory) : Memory :=
  match image with
  | [] => m
  | (a, v) :: rest => Memory.place rest (m.write a.toNat v)

/-- The registers and flags before a stated entry point, drawn: those of a reset, and I as well (R283 (b)). -/
def State.drawnAtEntry (s : State) : State :=
  let t := s.drawnAtReset
  { t with p := { t.p with i := Config.freeBit t.draws }, draws := t.draws + 1 }

/-- What the claim lists takes its value, and PC the stated address (R283 (b)). -/
def State.enter (e : Entry) (s : State) : State :=
  { s with
    pc := e.pc
    a := e.a.getD s.a
    x := e.x.getD s.x
    y := e.y.getD s.y
    sp := e.sp.getD s.sp
    p :=
      { n := e.n.getD s.p.n
        v := e.v.getD s.p.v
        b := e.b.getD s.p.b
        d := e.d.getD s.p.d
        i := e.i.getD s.p.i
        z := e.z.getD s.p.z
        c := e.c.getD s.p.c } }

/-- The launch over a state, whose memory outside the image is the unspecified rest, and whose parameters and request inputs
are the platform's (R283, notes/assumptions/24.md). From reset, it is the reset event with the image in memory (R281). -/
def launchState (l : Launch) (image : Image) (s : State) : Except Refusal State :=
  let s := s.setMem (Memory.place image s.mem)
  match l with
  | .fromReset => resetEvent s
  | .fromEntry e => .ok (s.drawnAtEntry.enter e)

end Sys2Proof.Machine
end

