-- ==== Sys2Proof/Machine/Run.lean ====
section
/-! DEFINITION. Runs and where they end (70_reset_and_hazards.md R283, R290). The end is the parameter `HALT_CONDITION`, which is
the claim's to state. -/

namespace Sys2Proof.Machine

/-- `HALT_CONDITION` (R290): the run ends in a state where `before` holds, or after a step from `s` to `t` where
`after s t` holds. -/
structure HaltCondition where
  before : State → Bool
  after : State → State → Bool

/-- Does the step from `s` to `t` execute an instruction that leaves PC at its own address (R290)? A step that serves an event
executes none. -/
def haltsAt (s t : State) : Bool :=
  (pendingEvent (sampleInputs s)).isNone && t.pc == s.pc

/-- The convention of the spec's vectors and programs (R290): an instruction leaves PC at its own address. -/
def HaltCondition.ownAddress : HaltCondition where
  before := fun _ => false
  after := haltsAt

/-- PC reaches a stated address (R290). -/
def HaltCondition.pcAt (a : Word) : HaltCondition where
  before := fun s => s.pc == a
  after := fun _ _ => false

/-- Is the next step the execution of a BRK (R290)? -/
def brkIsNext (s : State) : Bool :=
  let s := sampleInputs s
  (pendingEvent s).isNone &&
    match fetchInstr s with
    | .ok (i, _) => i == .brk
    | .error _ => false

/-- A BRK is about to execute (R290). -/
def HaltCondition.brkNext : HaltCondition where
  before := brkIsNext
  after := fun _ _ => false

/-- No condition but the number of steps (R290). -/
def HaltCondition.stepsOnly : HaltCondition where
  before := fun _ => false
  after := fun _ _ => false

/-- How a run of a stated number of steps came out. -/
inductive RunEnd where
  /-- The condition held, in this state. -/
  | halted (s : State)
  /-- The condition did not hold, and this is the state after the last step. -/
  | going (s : State)
  /-- The model stopped (R243). -/
  | refused (r : Refusal)
  deriving DecidableEq, Repr

/-- At most `fuel` steps, ending where the condition holds (R290) or at the first stop of the model. -/
def runUntil (halt : HaltCondition) (fuel : Nat) (s : State) : RunEnd :=
  if halt.before s then .halted s
  else match fuel with
    | 0 => .going s
    | k + 1 =>
      match step s with
      | .next t => if halt.after s t then .halted t else runUntil halt k t
      | .fault f => nomatch f
      | .refused r => .refused r

/-- A run of the model: from a launch over `s` (R283), for at most `fuel` steps, to the end the claim states (R290). -/
def runFromLaunch (l : Launch) (image : Image) (halt : HaltCondition) (fuel : Nat) (s : State) : RunEnd :=
  match launchState l image s with
  | .ok t => runUntil halt fuel t
  | .error r => .refused r

end Sys2Proof.Machine
end

