-- ==== Sys2Proof/Safety.lean ====
section
/-! DEFINITION. The terms in which claims speak of runs: the invariant of every run, the platforms on which no access is
refused, and the boundary at which no event is served. Where a run starts and ends is in Machine/Launch.lean and
Machine/Run.lean. -/

namespace Sys2Proof.Machine

/-- The invariant of every run: memory has its canonical form. -/
def State.Inv (s : State) : Prop := s.mem.wf

/-- The platform declares no device region (the default of `IO_REGIONS`, R3). On such a platform no access is refused
(R41, R50). -/
def State.NoDevices (s : State) : Prop := s.par.ioRegions = []

/-- The default platform of R3: 64 KiB of RAM and no device. -/
def State.PlainMemory (s : State) : Prop := s.par.memoryMap = [] ∧ s.par.ioRegions = []

/-- No event asks to be served at the boundary (R250). -/
def State.Quiet (s : State) : Prop := pendingEvent (sampleInputs s) = none

/-- The decimal number a byte of valid BCD stands for: high nibble tens, low nibble units (43_arithmetic.md R157). -/
def bcdValue (b : Byte) : Nat := b.toNat / 16 * 10 + b.toNat % 16

end Sys2Proof.Machine
end

