-- ==== Sys2Proof/Certificates/Slice0/Obligations.lean ====
section
/-! DEFINITION. The statements for the provers. A statement about an instruction holds on every platform and for every value
of the parameters; where it says what an operand is, it says it through the operation the meaning uses (`operand`,
`effectiveAddress`, `push`, `pull`), whose own statements come first. A next state is written as the old one with the fields
that change, so what is not named is unchanged: that is the instruction's frame. `draws` counts the free values handed out; it
moves only where an unmapped address is read or a value is left open. -/

open Sys2Proof Sys2Proof.Machine

/-! Encoding. -/

/-- R70, R95 to R98: decoding the encoding of an instruction of the part gives it back, whatever bytes follow. -/
def Obligations.DecodeOfEncodeIsTheInstruction : Prop :=
  ∀ (hasRor : Bool) (i : Instr) (rest : List Byte),
    i.wf hasRor = true → decode hasRor (encode i ++ rest) = .ok (i, rest)

/-- R96: decoding is unambiguous. What decodes is an instruction of the part, and its encoding is the bytes read. -/
def Obligations.EncodeOfDecodeIsTheBytes : Prop :=
  ∀ (hasRor : Bool) (bytes rest : List Byte) (i : Instr),
    decode hasRor bytes = .ok (i, rest) → i.wf hasRor = true ∧ encode i ++ rest = bytes

/-- R71, R96: the opcode byte alone decides the mnemonic, the operand form and the length. -/
def Obligations.OpcodeByteDecidesForm : Prop :=
  ∀ (hasRor : Bool) (op : Byte) (r₁ r₂ t₁ t₂ : List Byte) (i₁ i₂ : Instr),
    decode hasRor (op :: r₁) = .ok (i₁, t₁) → decode hasRor (op :: r₂) = .ok (i₂, t₂) →
      mnemonic i₁ = mnemonic i₂ ∧ formOf i₁ = formOf i₂ ∧ (encode i₁).length = (encode i₂).length

/-- Words written out from the encodings of R100 and of the instruction rules decode to their instructions. -/
def Obligations.SampleWordsDecode : Prop :=
  decodeTableWord 16 0x0AA9 = some (.ldaImm 0x0A) ∧ decodeTableWord 24 0x31F6AD = some (.ldaAbs 0x31F6) ∧
    decodeTableWord 8 0xAA = some .tax ∧ decodeTableWord 8 0x4A = some .lsrAcc ∧
    decodeTableWord 24 0x215F6C = some (.jmpInd 0x215F) ∧ decodeTableWord 16 0x3EA1 = some (.ldaIzx 0x3E) ∧
    decodeTableWord 16 0x4CB1 = some (.ldaIzy 0x4C) ∧ decodeTableWord 16 0xA7F0 = some (.beq 0xA7) ∧
    decodeTableWord 8 0x02 = some (.reserved 0x02)

/-- R97, R98, R242: a reserved opcode is refused by name, by `exec` and by the step that fetches it, whatever stands after its
opcode byte. -/
def Obligations.ReservedOpcodesAreRefused : Prop :=
  (∀ (op : Byte) (s : State), exec (.reserved op) s = .refused (.reservedOpcode op)) ∧
    ∀ (s u : State) (op : Byte), s.Quiet → readByte s.pc (sampleInputs s) = .ok (op, u) →
      isReserved s.par.hasRor op = true → step s = .refused (.reservedOpcode op)

/-! The status register. -/

/-- R24. -/
def Obligations.SetNzRule : Prop :=
  ∀ (p : Status) (r : Byte),
    p.setNZ r = { p with n := r.getLsbD 7, z := decide (r.toNat % 256 = 0) } ∧
      ¬ ((p.setNZ r).n = true ∧ (p.setNZ r).z = true)

/-- R22: the status byte as a number; and the bytes PHP and the interrupt entries make of it, whose bit 4 is the stored B
for PHP under `latched`, 1 for PHP under `push_only` and for BRK, and 0 for a hardware interrupt (R27, R245). -/
def Obligations.StatusByteRule : Prop :=
  (∀ p : Status, p.toByte.toNat = p.n.toNat * 128 + p.v.toNat * 64 + 32 + p.b.toNat * 16 + p.d.toNat * 8 +
      p.i.toNat * 4 + p.z.toNat * 2 + p.c.toNat) ∧
    (∀ p : Status, p.pushedByPhp .latched = p.toByte ∧
      p.pushedByPhp .pushOnly = { p with b := true }.toByte ∧
      p.pushedByInterrupt .brk = { p with b := true }.toByte ∧
      p.pushedByInterrupt .irq = { p with b := false }.toByte ∧
      p.pushedByInterrupt .nmi = { p with b := false }.toByte)

/-- R23: the flags from a byte, bit 5 ignored, B kept under `push_only`; and the flags a byte was made of come back. -/
def Obligations.SetPRule : Prop :=
  (∀ (old : Status) (v : Byte), Status.ofByte .latched old v =
      { n := v.getLsbD 7
        v := v.getLsbD 6
        b := v.getLsbD 4
        d := v.getLsbD 3
        i := v.getLsbD 2
        z := v.getLsbD 1
        c := v.getLsbD 0 }) ∧
    (∀ (old : Status) (v : Byte), Status.ofByte .pushOnly old v =
      { Status.ofByte .latched old v with b := old.b }) ∧
    ∀ (old p : Status), Status.ofByte .latched old p.toByte = p

/-! Memory and the stack. -/

/-- R41, R50, R59: an access answers exactly where no device is. A read of RAM or ROM gives what memory holds, of an unmapped
address a free value, a new one each time; it changes nothing else. A write of RAM is what the next read of the address gives,
and leaves every other byte alone (R54); a write of ROM or of an unmapped address is dropped. -/
def Obligations.MemoryAccesses : Prop :=
  ∀ (a : Word) (v : Byte) (s : State),
    (s.isIo a = true → readByte a s = .error (.ioRegion a) ∧ writeByte a v s = .error (.ioRegion a)) ∧
      (s.isIo a = false → s.kindAt a ≠ .unmapped → readByte a s = .ok (s.mem.read a.toNat, s)) ∧
      (s.isIo a = false → s.kindAt a = .unmapped →
        readByte a s = .ok (Config.freeByte s.draws, { s with draws := s.draws + 1 })) ∧
      (s.isIo a = false → s.kindAt a ≠ .ram → writeByte a v s = .ok s) ∧
      (s.isIo a = false → s.kindAt a = .ram → ∃ t, writeByte a v s = .ok t ∧ t = { s with mem := t.mem } ∧
        readByte a t = .ok (v, t) ∧ ∀ c, c ≠ a.toNat → t.mem.read c = s.mem.read c)

/-- R43, R44: a 16-bit read is two byte reads, the low byte first; the second address wraps at 65536, or at 256 in the zero
page. -/
def Obligations.SixteenBitReads : Prop :=
  (∀ (a : Word) (s s₁ s₂ : State) (lo hi : Byte), readByte a s = .ok (lo, s₁) → readByte (a + 1) s₁ = .ok (hi, s₂) →
      (a + 1).toNat = (a.toNat + 1) % 65536 ∧
        ∃ w : Word, read16 a s = .ok (w, s₂) ∧ w.toNat = hi.toNat * 256 + lo.toNat) ∧
    ∀ (z : Byte) (s s₁ s₂ : State) (lo hi : Byte), readByte (zeroPage z) s = .ok (lo, s₁) →
      readByte (zeroPage (z + 1)) s₁ = .ok (hi, s₂) →
        (zeroPage z).toNat = z.toNat ∧ (zeroPage (z + 1)).toNat = (z.toNat + 1) % 256 ∧
          ∃ w : Word, read16zp z s = .ok (w, s₂) ∧ w.toNat = hi.toNat * 256 + lo.toNat

/-- R45, R46, R47: a push writes at 0x0100 + SP and then moves SP down by one, modulo 256; a pull moves SP up by one, modulo 256,
and then reads at 0x0100 + SP. -/
def Obligations.PushAndPullRules : Prop :=
  (∀ (v : Byte) (s u : State), writeByte (stackAddress s.sp) v s = .ok u →
    ∃ t, push v s = .ok t ∧ t = { u with sp := t.sp } ∧ t.sp.toNat = (s.sp.toNat + 255) % 256 ∧
      (stackAddress s.sp).toNat = 0x0100 + s.sp.toNat) ∧
    ∀ (v : Byte) (s t : State), readByte (stackAddress (s.sp + 1)) { s with sp := s.sp + 1 } = .ok (v, t) →
      pull s = .ok (v, t) ∧ t.sp.toNat = (s.sp.toNat + 1) % 256 ∧
        (stackAddress (s.sp + 1)).toNat = 0x0100 + (s.sp.toNat + 1) % 256

/-- R47: a pull after a push returns the byte and restores SP; only the one stack byte has changed. -/
def Obligations.PullAfterPush : Prop :=
  ∀ (v : Byte) (s : State), s.isIo (stackAddress s.sp) = false → s.kindAt (stackAddress s.sp) = .ram →
    ∃ t u, push v s = .ok t ∧ pull t = .ok (v, u) ∧ u = { s with mem := u.mem } ∧
      u.mem.read (0x0100 + s.sp.toNat) = v ∧ ∀ c, c ≠ 0x0100 + s.sp.toNat → u.mem.read c = s.mem.read c

/-- R57: a store to code is seen by the very next fetch: after `STA` to the address behind itself, the instruction fetched there
has the opcode that was in A. -/
def Obligations.StoreToCodeIsFetchedNext : Prop :=
  ∀ s : State, s.PlainMemory →
    ∃ t, exec (.staAbs (s.pc + 3)) s = .next t ∧ t.pc = s.pc + 3 ∧
      ∃ i, fetchInstr t = .ok (i, t) ∧ (encode i).head? = some s.a

/-! Operand forms. -/

/-- R77 to R82, R84, R85: the effective address of each memory form. A zero-page index and the sum of `izx` wrap at 256, the other
sums at 65536; the pointers are read by `Read16zp`. Only the pointer reads can change the state. -/
def Obligations.EffectiveAddresses : Prop :=
  ∀ (s : State) (b : Byte) (a : Word),
    (∃ w : Word, effectiveAddress (.zp b) s = .ok (w, s) ∧ w.toNat = b.toNat) ∧
      (∃ w : Word, effectiveAddress (.zpx b) s = .ok (w, s) ∧ w.toNat = (b.toNat + s.x.toNat) % 256) ∧
      (∃ w : Word, effectiveAddress (.zpy b) s = .ok (w, s) ∧ w.toNat = (b.toNat + s.y.toNat) % 256) ∧
      effectiveAddress (.abs a) s = .ok (a, s) ∧
      (∃ w : Word, effectiveAddress (.abx a) s = .ok (w, s) ∧ w.toNat = (a.toNat + s.x.toNat) % 65536) ∧
      (∃ w : Word, effectiveAddress (.aby a) s = .ok (w, s) ∧ w.toNat = (a.toNat + s.y.toNat) % 65536) ∧
      (∀ (z : Byte) (base : Word) (t : State), z.toNat = (b.toNat + s.x.toNat) % 256 → read16zp z s = .ok (base, t) →
        effectiveAddress (.izx b) s = .ok (base, t)) ∧
      ∀ (base : Word) (t : State), read16zp b s = .ok (base, t) →
        ∃ w : Word, effectiveAddress (.izy b) s = .ok (w, t) ∧ w.toNat = (base.toNat + s.y.toNat) % 65536

/-- R87: the operand is the byte itself for `imm`, else the byte at the effective address; reading it changes nothing but the
count of free values. -/
def Obligations.OperandReads : Prop :=
  (∀ (b : Byte) (s : State), operand (.imm b) s = .ok (b, s)) ∧
    (∀ (m : MemForm) (s t : State) (ea : Word), effectiveAddress m s = .ok (ea, t) →
      operand (.mem m) s = readByte ea t) ∧
    ∀ (f : ReadForm) (s t : State) (m : Byte), operand f s = .ok (m, t) → t = { s with draws := t.draws }

/-- R83: the target of `JMP (Oper)`. Its high byte is read after the low byte, at the next address, but where the pointer's low
byte is 0xFF: there it is at the start of the same page or at the next address, as `JMP_IND_PAGE_WRAP` says, and while that is
unset the case is refused. -/
def Obligations.IndirectJumpTarget : Prop :=
  ∀ (ptr : Word) (s s₁ : State) (lo : Byte), readByte ptr s = .ok (lo, s₁) →
    (loByte ptr = 0xFF → s.par.jmpIndPageWrap = .unset → indirectTarget ptr s = .error (.jmpIndirectPageEnd ptr)) ∧
      ∀ (high : Word) (hi : Byte) (s₂ : State), readByte high s₁ = .ok (hi, s₂) →
        (loByte ptr ≠ 0xFF → high = ptr + 1 → indirectTarget ptr s = .ok (wordOf hi lo, s₂)) ∧
          (loByte ptr = 0xFF → s.par.jmpIndPageWrap = .samePage → high = wordOf (hiByte ptr) 0x00 →
            indirectTarget ptr s = .ok (wordOf hi lo, s₂)) ∧
          (loByte ptr = 0xFF → s.par.jmpIndPageWrap = .nextPage → high = ptr + 1 →
            indirectTarget ptr s = .ok (wordOf hi lo, s₂))

/-- R86, R195: the branch target under both readings of the displacement byte. -/
def Obligations.BranchTargets : Prop :=
  ∀ (pc : Word) (b : Byte),
    ((branchTarget .twosComplement pc b).toNat : Int) = ((pc.toNat : Int) + 2 + b.toInt) % 65536 ∧
      ((branchTarget .signMagnitude pc b).toNat : Int) =
        ((pc.toNat : Int) + 2 + (if b.toNat < 128 then (b.toNat : Int) else 128 - b.toNat)) % 65536 ∧
      (b.toNat < 128 → branchTarget .twosComplement pc b = branchTarget .signMagnitude pc b)

/-- R102: the byte an assembler computes for a target is the byte that branches there, and it refuses exactly the targets
that no byte reaches. -/
def Obligations.AssembledBranchReachesItsTarget : Prop :=
  ∀ (pc target : Word) (b : Byte),
    displacementTo pc target = some b ↔ branchTarget .twosComplement pc b = target

/-! Load, store, transfer, stack. -/

/-- R120 to R123: LDA, LDX and LDY write their register with the operand and N and Z from it, go on past their bytes, and change
nothing else. -/
def Obligations.LoadsReadTheirOperand : Prop :=
  ∀ (b : Byte) (a : Word) (i : Instr) (f : ReadForm) (s s₁ : State) (m : Byte), operand f s = .ok (m, s₁) →
    ((i, f) ∈ ([(.ldaImm b, .imm b), (.ldaZp b, .mem (.zp b)), (.ldaZpx b, .mem (.zpx b)),
       (.ldaAbs a, .mem (.abs a)), (.ldaAbx a, .mem (.abx a)), (.ldaAby a, .mem (.aby a)),
       (.ldaIzx b, .mem (.izx b)), (.ldaIzy b, .mem (.izy b))] : List (Instr × ReadForm)) →
      exec i s = .next { s with a := m, p := { s.p with n := m.msb, z := m == 0 }, pc := s.pc + f.length, draws := s₁.draws }) ∧
    ((i, f) ∈ ([(.ldxImm b, .imm b), (.ldxZp b, .mem (.zp b)), (.ldxZpy b, .mem (.zpy b)),
       (.ldxAbs a, .mem (.abs a)), (.ldxAby a, .mem (.aby a))] : List (Instr × ReadForm)) →
      exec i s = .next { s with x := m, p := { s.p with n := m.msb, z := m == 0 }, pc := s.pc + f.length, draws := s₁.draws }) ∧
    ((i, f) ∈ ([(.ldyImm b, .imm b), (.ldyZp b, .mem (.zp b)), (.ldyZpx b, .mem (.zpx b)),
       (.ldyAbs a, .mem (.abs a)), (.ldyAbx a, .mem (.abx a))] : List (Instr × ReadForm)) →
      exec i s = .next { s with y := m, p := { s.p with n := m.msb, z := m == 0 }, pc := s.pc + f.length, draws := s₁.draws })

/-- R120, R124 to R126: STA, STX and STY store their register at the effective address, where RAM is, and change no other
byte, no register and no flag. Where a device is the store is refused (R50). -/
def Obligations.StoresWriteTheirRegister : Prop :=
  ∀ (b : Byte) (a : Word) (s s₁ : State) (i : Instr) (v : Byte) (m : MemForm) (ea : Word),
    (i, v, m) ∈ ([(.staZp b, s.a, .zp b), (.staZpx b, s.a, .zpx b), (.staAbs a, s.a, .abs a),
       (.staAbx a, s.a, .abx a), (.staAby a, s.a, .aby a), (.staIzx b, s.a, .izx b),
       (.staIzy b, s.a, .izy b), (.stxZp b, s.x, .zp b), (.stxZpy b, s.x, .zpy b),
       (.stxAbs a, s.x, .abs a), (.styZp b, s.y, .zp b), (.styZpx b, s.y, .zpx b),
       (.styAbs a, s.y, .abs a)] : List (Instr × Byte × MemForm)) →
    effectiveAddress m s = .ok (ea, s₁) →
      (s.isIo ea = true → exec i s = .refused (.ioRegion ea)) ∧
        (s.isIo ea = false → ∃ t, exec i s = .next t ∧
          t = { s with mem := t.mem, pc := s.pc + m.length, draws := s₁.draws } ∧
          (s.kindAt ea = .ram → t.mem.read ea.toNat = v) ∧ (s.kindAt ea ≠ .ram → t.mem = s.mem) ∧
          ∀ c, c ≠ ea.toNat → t.mem.read c = s.mem.read c)

/-- R130 to R136: the six transfers; TXS alone changes no flag. R185, R187, R188, R190, R191: the index registers one up or down,
modulo 256, with N and Z. Nothing else changes but PC. -/
def Obligations.RegisterInstructions : Prop :=
  ∀ s : State,
    exec .tax s = .next { s with x := s.a, p := { s.p with n := s.a.msb, z := s.a == 0 }, pc := s.pc + 1 } ∧
      exec .tay s = .next { s with y := s.a, p := { s.p with n := s.a.msb, z := s.a == 0 }, pc := s.pc + 1 } ∧
      exec .tsx s = .next { s with x := s.sp, p := { s.p with n := s.sp.msb, z := s.sp == 0 }, pc := s.pc + 1 } ∧
      exec .txa s = .next { s with a := s.x, p := { s.p with n := s.x.msb, z := s.x == 0 }, pc := s.pc + 1 } ∧
      exec .txs s = .next { s with sp := s.x, pc := s.pc + 1 } ∧
      exec .tya s = .next { s with a := s.y, p := { s.p with n := s.y.msb, z := s.y == 0 }, pc := s.pc + 1 } ∧
      exec .inx s = .next { s with
        x := s.x + 1, p := { s.p with n := (s.x + 1).msb, z := s.x + 1 == 0 }, pc := s.pc + 1 } ∧
      exec .iny s = .next { s with
        y := s.y + 1, p := { s.p with n := (s.y + 1).msb, z := s.y + 1 == 0 }, pc := s.pc + 1 } ∧
      exec .dex s = .next { s with
        x := s.x - 1, p := { s.p with n := (s.x - 1).msb, z := s.x - 1 == 0 }, pc := s.pc + 1 } ∧
      exec .dey s = .next { s with
        y := s.y - 1, p := { s.p with n := (s.y - 1).msb, z := s.y - 1 == 0 }, pc := s.pc + 1 }

/-- R140 to R142: PHA pushes A and PHP the status byte; no flag and no register but SP changes, and no byte but the one at
0x0100 + SP. R140, R143, R144: PLA writes A and N and Z from the byte pulled, PLP the flags; SP goes up by one and nothing else
changes. Where the stack is no RAM the push is dropped (R59), and where a device is it is refused (R50). -/
def Obligations.StackInstructions : Prop :=
  (∀ (s : State) (i : Instr) (v : Byte),
    (i, v) ∈ ([(.pha, s.a), (.php, s.p.pushedByPhp s.par.bFlagModel)] : List (Instr × Byte)) →
      (s.isIo (stackAddress s.sp) = true → exec i s = .refused (.ioRegion (stackAddress s.sp))) ∧
        (s.isIo (stackAddress s.sp) = false → ∃ t, exec i s = .next t ∧
          t = { s with sp := s.sp - 1, mem := t.mem, pc := s.pc + 1 } ∧
          (s.kindAt (stackAddress s.sp) = .ram → t.mem.read (0x0100 + s.sp.toNat) = v) ∧
          (s.kindAt (stackAddress s.sp) ≠ .ram → t.mem = s.mem) ∧
          ∀ c, c ≠ 0x0100 + s.sp.toNat → t.mem.read c = s.mem.read c)) ∧
    ∀ (s s₁ : State) (m : Byte), pull s = .ok (m, s₁) →
      exec .pla s = .next { s with
        a := m
        p := { s.p with n := m.msb, z := m == 0 }
        sp := s.sp + 1
        pc := s.pc + 1
        draws := s₁.draws } ∧
      exec .plp s = .next { s with
        p := Status.ofByte s.par.bFlagModel s.p m
        sp := s.sp + 1
        pc := s.pc + 1
        draws := s₁.draws }

/-! Arithmetic and compare. -/

/-- R150, R151, R155: ADC and SBC write A, N, V, Z and C with the result of their operand, A and the carry, decimal where D is
set, as the decimal parameters settle it; nothing else changes. -/
def Obligations.AddAndSubtractResults : Prop :=
  ∀ (b : Byte) (a : Word) (i : Instr) (f : ReadForm) (add : Bool) (s s₁ s₂ : State) (m : Byte) (r : AluResult),
    (i, f, add) ∈ ([(.adcImm b, .imm b, true), (.adcZp b, .mem (.zp b), true), (.adcZpx b, .mem (.zpx b), true),
       (.adcAbs a, .mem (.abs a), true), (.adcAbx a, .mem (.abx a), true), (.adcAby a, .mem (.aby a), true),
       (.adcIzx b, .mem (.izx b), true), (.adcIzy b, .mem (.izy b), true), (.sbcImm b, .imm b, false),
       (.sbcZp b, .mem (.zp b), false), (.sbcZpx b, .mem (.zpx b), false), (.sbcAbs a, .mem (.abs a), false),
       (.sbcAbx a, .mem (.abx a), false), (.sbcAby a, .mem (.aby a), false), (.sbcIzx b, .mem (.izx b), false),
       (.sbcIzy b, .mem (.izy b), false)] :
        List (Instr × ReadForm × Bool)) →
    operand f s = .ok (m, s₁) →
    settleDecimal m
        (if add then if s.p.d then adcDecimal s.a m s.p.c else adcBinary s.a m s.p.c
          else if s.p.d then sbcDecimal s.a m s.p.c else sbcBinary s.a m s.p.c) s₁ = (r, s₂) →
      exec i s = .next { s with
        a := r.value
        p := { s.p with n := r.n, v := r.v, z := r.z, c := r.c }
        pc := s.pc + f.length
        draws := s₂.draws }

/-- R157 (D11): in binary mode, with both parameters at `formula`, or with `DECIMAL_NVZ` at `formula` on valid BCD, the result is the
formula's; on valid BCD A and C always are. In decimal mode an operand that is not valid BCD leaves A, N, V, Z and C to free values where `DECIMAL_INVALID_BCD` is `draw`, and
any other operand leaves N, V and Z to free values where `DECIMAL_NVZ` is `draw`. -/
def Obligations.DecimalParameters : Prop :=
  ∀ (m : Byte) (r : AluResult) (s : State),
    (s.p.d = false → settleDecimal m r s = (r, s)) ∧
      (s.par.decimalNvz = .formula → s.par.decimalInvalidBcd = .formula → settleDecimal m r s = (r, s)) ∧
      (s.par.decimalNvz = .formula → invalidBcd s.a = false → invalidBcd m = false → settleDecimal m r s = (r, s)) ∧
      (invalidBcd s.a = false → invalidBcd m = false → ∃ q t, settleDecimal m r s = (q, t) ∧
        q.value = r.value ∧ q.c = r.c ∧ t = { s with draws := t.draws }) ∧
      (s.p.d = true → s.par.decimalNvz = .draw → (s.par.decimalInvalidBcd = .formula ∨
          (invalidBcd s.a = false ∧ invalidBcd m = false)) →
        settleDecimal m r s = ({ r with
          n := Config.freeBit s.draws
          v := Config.freeBit (s.draws + 1)
          z := Config.freeBit (s.draws + 2) }, { s with draws := s.draws + 3 })) ∧
      (s.p.d = true → s.par.decimalInvalidBcd = .draw → (invalidBcd s.a = true ∨ invalidBcd m = true) →
        settleDecimal m r s = ({
          value := Config.freeByte s.draws
          n := Config.freeBit s.draws
          v := Config.freeBit (s.draws + 1)
          z := Config.freeBit (s.draws + 2)
          c := Config.freeBit (s.draws + 3) }, { s with draws := s.draws + 4 }))

/-- R156: the binary sum: A is the unsigned sum modulo 256, C whether it reaches 256, V whether the signed sum leaves -128 to 127, N
bit 7 of A and Z whether A is zero. -/
def Obligations.AdcBinaryIsAddition : Prop :=
  ∀ (a m : Byte) (c : Bool),
    (adcBinary a m c).value.toNat = (a.toNat + m.toNat + c.toNat) % 256 ∧
      ((adcBinary a m c).c = true ↔ a.toNat + m.toNat + c.toNat ≥ 256) ∧
      ((adcBinary a m c).v = true ↔ ¬ (-128 ≤ a.toInt + m.toInt + c.toNat ∧ a.toInt + m.toInt + c.toNat ≤ 127)) ∧
      (adcBinary a m c).n = (adcBinary a m c).value.msb ∧
      ((adcBinary a m c).z = true ↔ (adcBinary a m c).value = 0)

/-- R156: the binary difference: A is the unsigned difference modulo 256, C is clear on a borrow, V whether the signed difference
leaves -128 to 127, N bit 7 of A and Z whether A is zero. -/
def Obligations.SbcBinaryIsSubtraction : Prop :=
  ∀ (a m : Byte) (c : Bool),
    ((sbcBinary a m c).value.toNat : Int) = ((a.toNat : Int) - m.toNat - (1 - c.toNat)) % 256 ∧
      ((sbcBinary a m c).c = true ↔ a.toNat + c.toNat ≥ m.toNat + 1) ∧
      ((sbcBinary a m c).v = true ↔
        ¬ (-128 ≤ a.toInt - m.toInt - (1 - c.toNat) ∧ a.toInt - m.toInt - (1 - c.toNat) ≤ 127)) ∧
      (sbcBinary a m c).n = (sbcBinary a m c).value.msb ∧
      ((sbcBinary a m c).z = true ↔ (sbcBinary a m c).value = 0)

/-- R156: with D = 0, SBC of an operand is ADC of its complement. -/
def Obligations.SbcIsAdcOfTheComplement : Prop :=
  ∀ (a m : Byte) (c : Bool), sbcBinary a m c = adcBinary a (m ^^^ 0xFF) c

/-- R157: on valid BCD the decimal sum is the sum of the decimal numbers modulo 100, with C its carry. R150: of any two bytes,
where the low digits and the carry exceed 9 the binary sum is corrected by 6; N and V are taken there, V as where the operands have
one sign and N another; Z is that of the binary sum; then a number above 0x99 is corrected by 0x60 and sets C. -/
def Obligations.AdcDecimalAddsBcd : Prop :=
  (∀ (a m : Byte) (c : Bool), invalidBcd a = false → invalidBcd m = false →
    invalidBcd (adcDecimal a m c).value = false ∧
      bcdValue (adcDecimal a m c).value = (bcdValue a + bcdValue m + c.toNat) % 100 ∧
      ((adcDecimal a m c).c = true ↔ bcdValue a + bcdValue m + c.toNat ≥ 100)) ∧
    ∀ (a m : Byte) (c : Bool) (low : Nat),
      low = a.toNat + m.toNat + c.toNat + (if a.toNat % 16 + m.toNat % 16 + c.toNat > 9 then 6 else 0) →
        ((adcDecimal a m c).n = true ↔ low % 256 ≥ 128) ∧
          ((adcDecimal a m c).v = true ↔ a.msb = m.msb ∧ (adcDecimal a m c).n ≠ a.msb) ∧
          (adcDecimal a m c).z = (adcBinary a m c).z ∧
          ((adcDecimal a m c).c = true ↔ low > 0x99) ∧
          (adcDecimal a m c).value.toNat = (low + if low > 0x99 then 0x60 else 0) % 256

/-- R157: on valid BCD the decimal difference is the difference of the decimal numbers modulo 100, with C clear on a borrow.
R151: of any two bytes, N, V and Z are those of the binary difference; that difference is corrected by 6 where the low digits
borrow; C is clear where it is then negative; and A is what it is after a correction by 0x60 where it is negative or above 0x99. -/
def Obligations.SbcDecimalSubtractsBcd : Prop :=
  (∀ (a m : Byte) (c : Bool), invalidBcd a = false → invalidBcd m = false →
    invalidBcd (sbcDecimal a m c).value = false ∧
      (bcdValue (sbcDecimal a m c).value : Int) = ((bcdValue a : Int) - bcdValue m - (1 - c.toNat)) % 100 ∧
      ((sbcDecimal a m c).c = true ↔ bcdValue a + c.toNat ≥ bcdValue m + 1)) ∧
    ∀ (a m : Byte) (c : Bool) (low : Int),
      low = (a.toNat : Int) - m.toNat - (1 - c.toNat) -
          (if a.toNat % 16 + c.toNat < m.toNat % 16 + 1 then 6 else 0) →
        (sbcDecimal a m c).n = (sbcBinary a m c).n ∧ (sbcDecimal a m c).v = (sbcBinary a m c).v ∧
          (sbcDecimal a m c).z = (sbcBinary a m c).z ∧ ((sbcDecimal a m c).c = true ↔ low ≥ 0) ∧
          ((sbcDecimal a m c).value.toNat : Int) = (low - if low < 0 ∨ low > 0x99 then 0x60 else 0) % 256

/-- R152 to R155: CMP, CPX and CPY set C where the register is at least the operand, Z where they are equal and N from bit 7
of the difference, and change nothing else. -/
def Obligations.ComparesSetFlagsOnly : Prop :=
  ∀ (b : Byte) (a : Word) (s s₁ : State) (i : Instr) (r : Byte) (f : ReadForm) (m : Byte),
    (i, r, f) ∈ ([(.cmpImm b, s.a, .imm b), (.cmpZp b, s.a, .mem (.zp b)), (.cmpZpx b, s.a, .mem (.zpx b)),
       (.cmpAbs a, s.a, .mem (.abs a)), (.cmpAbx a, s.a, .mem (.abx a)), (.cmpAby a, s.a, .mem (.aby a)),
       (.cmpIzx b, s.a, .mem (.izx b)), (.cmpIzy b, s.a, .mem (.izy b)), (.cpxImm b, s.x, .imm b),
       (.cpxZp b, s.x, .mem (.zp b)), (.cpxAbs a, s.x, .mem (.abs a)), (.cpyImm b, s.y, .imm b),
       (.cpyZp b, s.y, .mem (.zp b)), (.cpyAbs a, s.y, .mem (.abs a))] : List (Instr × Byte × ReadForm)) →
    operand f s = .ok (m, s₁) →
      exec i s = .next { s with
        p := { s.p with n := (r - m).msb, z := decide (r = m), c := decide (r.toNat ≥ m.toNat) }
        pc := s.pc + f.length, draws := s₁.draws }

/-! Logic, shifts, increment and decrement. -/

/-- R165 to R168: AND, EOR and ORA write A with the bitwise result and N and Z from it, and change nothing else. -/
def Obligations.LogicResults : Prop :=
  ∀ (b : Byte) (a : Word) (i : Instr) (f : ReadForm) (r : Byte) (s s₁ : State) (m : Byte), operand f s = .ok (m, s₁) →
    (i, f, r) ∈ ([(.andImm b, .imm b, s.a &&& m), (.andZp b, .mem (.zp b), s.a &&& m), (.andZpx b, .mem (.zpx b), s.a &&& m),
       (.andAbs a, .mem (.abs a), s.a &&& m), (.andAbx a, .mem (.abx a), s.a &&& m),
       (.andAby a, .mem (.aby a), s.a &&& m), (.andIzx b, .mem (.izx b), s.a &&& m),
       (.andIzy b, .mem (.izy b), s.a &&& m), (.eorImm b, .imm b, s.a ^^^ m), (.eorZp b, .mem (.zp b), s.a ^^^ m),
       (.eorZpx b, .mem (.zpx b), s.a ^^^ m), (.eorAbs a, .mem (.abs a), s.a ^^^ m),
       (.eorAbx a, .mem (.abx a), s.a ^^^ m), (.eorAby a, .mem (.aby a), s.a ^^^ m),
       (.eorIzx b, .mem (.izx b), s.a ^^^ m), (.eorIzy b, .mem (.izy b), s.a ^^^ m), (.oraImm b, .imm b, s.a ||| m),
       (.oraZp b, .mem (.zp b), s.a ||| m), (.oraZpx b, .mem (.zpx b), s.a ||| m),
       (.oraAbs a, .mem (.abs a), s.a ||| m), (.oraAbx a, .mem (.abx a), s.a ||| m),
       (.oraAby a, .mem (.aby a), s.a ||| m), (.oraIzx b, .mem (.izx b), s.a ||| m),
       (.oraIzy b, .mem (.izy b), s.a ||| m)] :
        List (Instr × ReadForm × Byte)) →
      exec i s = .next { s with
        a := r
        p := { s.p with n := r.msb, z := r == 0 }
        pc := s.pc + f.length
        draws := s₁.draws }

/-- R165, R169: BIT copies bits 7 and 6 of the memory byte to N and V, sets Z where the AND is zero, and changes nothing
else. -/
def Obligations.BitTestsMemory : Prop :=
  ∀ (b : Byte) (a : Word) (i : Instr) (f : ReadForm) (s s₁ : State) (m : Byte),
    (i, f) ∈ ([(.bitZp b, .mem (.zp b)), (.bitAbs a, .mem (.abs a))] : List (Instr × ReadForm)) →
    operand f s = .ok (m, s₁) →
      exec i s = .next { s with
        p := { s.p with n := m.getLsbD 7, v := m.getLsbD 6, z := decide (s.a &&& m = 0) }
        pc := s.pc + f.length, draws := s₁.draws }

/-- R75, R175: the accumulator forms of ASL, LSR, ROL and ROR write A, N and Z with the result and C with the bit that left,
and change nothing else. -/
def Obligations.AccumulatorShifts : Prop :=
  ∀ (s : State) (i : Instr) (r : Byte × Bool),
    (i, r) ∈ ([(.aslAcc, aslByte s.a s.p.c), (.lsrAcc, lsrByte s.a s.p.c), (.rolAcc, rolByte s.a s.p.c),
       (.rorAcc, rorByte s.a s.p.c)] : List (Instr × Byte × Bool)) →
      exec i s = .next { s with
        a := r.1, p := { s.p with n := r.1.msb, z := r.1 == 0, c := r.2 }, pc := s.pc + 1 }

/-- R51, R88, R175, R185, R186, R189: the memory forms of the shifts, INC and DEC read the byte at the effective address once and
write the result there, where RAM is. N and Z are the result's, C the bit that left; INC and DEC leave C and V alone and D plays
no part. Nothing else changes. -/
def Obligations.ReadModifyWriteResults : Prop :=
  ∀ (b : Byte) (a : Word) (s s₁ s₂ : State) (i : Instr) (m : MemForm) (r : Byte × Bool) (ea : Word) (v : Byte),
    (i, m, r) ∈ ([(.aslZp b, .zp b, aslByte v s.p.c), (.aslZpx b, .zpx b, aslByte v s.p.c),
       (.aslAbs a, .abs a, aslByte v s.p.c), (.aslAbx a, .abx a, aslByte v s.p.c),
       (.lsrZp b, .zp b, lsrByte v s.p.c), (.lsrZpx b, .zpx b, lsrByte v s.p.c),
       (.lsrAbs a, .abs a, lsrByte v s.p.c), (.lsrAbx a, .abx a, lsrByte v s.p.c),
       (.rolZp b, .zp b, rolByte v s.p.c), (.rolZpx b, .zpx b, rolByte v s.p.c),
       (.rolAbs a, .abs a, rolByte v s.p.c), (.rolAbx a, .abx a, rolByte v s.p.c),
       (.rorZp b, .zp b, rorByte v s.p.c), (.rorZpx b, .zpx b, rorByte v s.p.c),
       (.rorAbs a, .abs a, rorByte v s.p.c), (.rorAbx a, .abx a, rorByte v s.p.c),
       (.incZp b, .zp b, (v + 1, s.p.c)), (.incZpx b, .zpx b, (v + 1, s.p.c)), (.incAbs a, .abs a, (v + 1, s.p.c)),
       (.incAbx a, .abx a, (v + 1, s.p.c)), (.decZp b, .zp b, (v - 1, s.p.c)), (.decZpx b, .zpx b, (v - 1, s.p.c)),
       (.decAbs a, .abs a, (v - 1, s.p.c)), (.decAbx a, .abx a, (v - 1, s.p.c))] :
        List (Instr × MemForm × Byte × Bool)) →
    effectiveAddress m s = .ok (ea, s₁) → readByte ea s₁ = .ok (v, s₂) →
      ∃ t, exec i s = .next t ∧
        t = { s with
          mem := t.mem
          p := { s.p with n := r.1.msb, z := r.1 == 0, c := r.2 }
          pc := s.pc + m.length
          draws := s₂.draws } ∧
        (s.kindAt ea = .ram → t.mem.read ea.toNat = r.1) ∧ (s.kindAt ea ≠ .ram → t.mem = s.mem) ∧
        ∀ c, c ≠ ea.toNat → t.mem.read c = s.mem.read c

/-- R176 to R179: the shifts and rotates as arithmetic: twice the byte or half of it, with 0 or the old carry entering, and the bit
that leaves as the new carry. -/
def Obligations.ShiftsAsArithmetic : Prop :=
  ∀ (m : Byte) (c : Bool),
    ((aslByte m c).1.toNat = 2 * m.toNat % 256 ∧ ((aslByte m c).2 = true ↔ 2 * m.toNat ≥ 256)) ∧
      ((lsrByte m c).1.toNat = m.toNat / 2 ∧ ((lsrByte m c).2 = true ↔ m.toNat % 2 = 1)) ∧
      ((rolByte m c).1.toNat = (2 * m.toNat + c.toNat) % 256 ∧ ((rolByte m c).2 = true ↔ 2 * m.toNat ≥ 256)) ∧
      ((rorByte m c).1.toNat = m.toNat / 2 + 128 * c.toNat ∧ ((rorByte m c).2 = true ↔ m.toNat % 2 = 1))

/-- R178, R179: ROR undoes ROL and ROL undoes ROR, byte and carry; nine ROLs restore both. -/
def Obligations.RotatesUndoEachOther : Prop :=
  ∀ (m : Byte) (c : Bool),
    rorByte (rolByte m c).1 (rolByte m c).2 = (m, c) ∧ rolByte (rorByte m c).1 (rorByte m c).2 = (m, c) ∧
      (fun q : Byte × Bool => rolByte q.1 q.2)^[9] (m, c) = (m, c)

/-! Control flow. -/

/-- R195 to R203: the eight branches. Where the condition holds PC becomes the target, else `npc`; nothing else changes. -/
def Obligations.BranchesTestOneFlag : Prop :=
  ∀ (b : Byte) (s : State) (i : Instr) (cond : Bool),
    (i, cond) ∈ ([(.bcc b, !s.p.c), (.bcs b, s.p.c), (.beq b, s.p.z), (.bmi b, s.p.n), (.bne b, !s.p.z), (.bpl b, !s.p.n),
      (.bvc b, !s.p.v), (.bvs b, s.p.v)] : List (Instr × Bool)) →
      (cond = true → exec i s = .next { s with pc := branchTarget s.par.relOffset s.pc b }) ∧
        (cond = false → exec i s = .next { s with pc := s.pc + 2 })

/-- R210, R212: JMP assigns PC, from its operand or through its pointer, and changes nothing else. -/
def Obligations.JumpsAssignPc : Prop :=
  ∀ (a : Word) (s : State),
    exec (.jmpAbs a) s = .next { s with pc := a } ∧
      (∀ (target : Word) (s₁ : State), indirectTarget a s = .ok (target, s₁) →
        exec (.jmpInd a) s = .next { s with pc := target, draws := s₁.draws }) ∧
      ∀ r : Refusal, indirectTarget a s = .error r → exec (.jmpInd a) s = .refused r

/-- R210, R211: JSR pushes the address of its own last byte, high byte first, and goes to its operand; SP goes down by two and
no byte but those two changes. A push where no RAM is is dropped (R59). Where a push would overwrite that last byte the JSR is
refused. -/
def Obligations.JsrPushesItsLastByteAddress : Prop :=
  ∀ (a : Word) (s : State),
    ((s.pc + 2 = stackAddress s.sp ∨ s.pc + 2 = stackAddress (s.sp - 1)) →
      exec (.jsr a) s = .refused (.jsrOverwritesOperand (s.pc + 2))) ∧
    (s.pc + 2 ≠ stackAddress s.sp → s.pc + 2 ≠ stackAddress (s.sp - 1) →
      s.isIo (stackAddress s.sp) = false → s.isIo (stackAddress (s.sp - 1)) = false →
      ∃ t, exec (.jsr a) s = .next t ∧ t = { s with sp := s.sp - 2, mem := t.mem, pc := a } ∧
        (s.kindAt (stackAddress s.sp) = .ram → t.mem.read (stackAddress s.sp).toNat = hiByte (s.pc + 2)) ∧
        (s.kindAt (stackAddress (s.sp - 1)) = .ram →
          t.mem.read (stackAddress (s.sp - 1)).toNat = loByte (s.pc + 2)) ∧
        (s.kindAt (stackAddress s.sp) ≠ .ram →
          t.mem.read (stackAddress s.sp).toNat = s.mem.read (stackAddress s.sp).toNat) ∧
        (s.kindAt (stackAddress (s.sp - 1)) ≠ .ram →
          t.mem.read (stackAddress (s.sp - 1)).toNat = s.mem.read (stackAddress (s.sp - 1)).toNat) ∧
        ∀ c, c ≠ (stackAddress s.sp).toNat → c ≠ (stackAddress (s.sp - 1)).toNat → t.mem.read c = s.mem.read c)

/-- R210, R213: RTS pulls the low byte, then the high byte, and goes to one past that address; SP goes up by two and nothing
else changes. -/
def Obligations.RtsReturnsPastThePulledAddress : Prop :=
  ∀ (s s₁ s₂ : State) (lo hi : Byte), pull s = .ok (lo, s₁) → pull s₁ = .ok (hi, s₂) →
    ∃ t, exec .rts s = .next t ∧ t = { s with sp := s.sp + 2, pc := t.pc, draws := s₂.draws } ∧
      t.pc.toNat = (hi.toNat * 256 + lo.toNat + 1) % 65536

/-- R214: a JSR and, after any code that leaves SP and the two stack bytes as the JSR left them, an RTS continue three past the
JSR, with SP as it was. -/
def Obligations.CallThenReturn : Prop :=
  ∀ (target : Word) (s : State), s.PlainMemory → jsrOverlaps s = false →
    ∃ t, exec (.jsr target) s = .next t ∧ t.pc = target ∧
      ∀ u : State, u.sp = t.sp → u.par = t.par →
        u.mem.read (stackAddress s.sp).toNat = t.mem.read (stackAddress s.sp).toNat →
        u.mem.read (stackAddress (s.sp - 1)).toNat = t.mem.read (stackAddress (s.sp - 1)).toNat →
        exec .rts u = .next { u with sp := s.sp, pc := s.pc + 3 }

/-! Flag and system instructions, interrupts, reset. -/

/-- R220 to R227, R230: the seven flag instructions write one flag and NOP none; nothing else changes but PC. -/
def Obligations.FlagInstructions : Prop :=
  ∀ (s : State) (i : Instr) (p : Status),
    (i, p) ∈ ([(.clc, { s.p with c := false }), (.cld, { s.p with d := false }), (.cli, { s.p with i := false }),
      (.clv, { s.p with v := false }), (.sec, { s.p with c := true }), (.sed, { s.p with d := true }),
      (.sei, { s.p with i := true }), (.nop, s.p)] : List (Instr × Status)) →
      exec i s = .next { s with p := p, pc := s.pc + 1 }

/-- R228, R245: what BRK, IRQ and NMI save and where they go, on plain memory. The frame is PC high, PC low and the status byte
with the old I, whose bit 4 says BRK or not; then I is set, under `latched` BRK has set B, and PC is the word at the vector.
BRK saves the address two past its opcode. Nothing else changes. -/
def Obligations.InterruptEntrySavesTheFrame : Prop :=
  ∀ s : State, s.PlainMemory →
    (exec .brk s = outcome (takeInterrupt .brk s)) ∧
    ∀ (k : InterruptKind) (ret vec : Word) (bit4 : Bool),
      (k, ret, vec, bit4) ∈ ([(.brk, s.pc + 2, 0xFFFE, true), (.irq, s.pc, 0xFFFE, false), (.nmi, s.pc, 0xFFFA, false)] :
        List (InterruptKind × Word × Word × Bool)) →
      ∃ t, takeInterrupt k s = .ok t ∧
        t = { s with
          sp := s.sp - 3
          mem := t.mem
          p := { s.p with i := true, b := if k = .brk ∧ s.par.bFlagModel = .latched then true else s.p.b }
          pc := wordOf (t.mem.read (vec.toNat + 1)) (t.mem.read vec.toNat) } ∧
        t.mem.read (stackAddress s.sp).toNat = hiByte ret ∧
        t.mem.read (stackAddress (s.sp - 1)).toNat = loByte ret ∧
        t.mem.read (stackAddress (s.sp - 2)).toNat = { s.p with b := bit4 }.toByte ∧
        ∀ c, c ≠ (stackAddress s.sp).toNat → c ≠ (stackAddress (s.sp - 1)).toNat →
          c ≠ (stackAddress (s.sp - 2)).toNat → t.mem.read c = s.mem.read c

/-- R245 on every platform: an entry that answers changes SP, I, B, PC, the count of free values and three bytes of the stack page
at most. -/
def Obligations.InterruptEntryFrame : Prop :=
  ∀ (k : InterruptKind) (s t : State), takeInterrupt k s = .ok t →
    t = { s with sp := s.sp - 3, mem := t.mem, pc := t.pc, draws := t.draws, p := { s.p with i := true, b := t.p.b } } ∧
      (k ≠ .brk → t.p.b = s.p.b) ∧
      ∀ c, c ≠ (stackAddress s.sp).toNat → c ≠ (stackAddress (s.sp - 1)).toNat →
        c ≠ (stackAddress (s.sp - 2)).toNat → t.mem.read c = s.mem.read c

/-- R229, R252: RTI pulls P, PC low and PC high; SP goes up by three and nothing else changes. -/
def Obligations.RtiRestoresStatusAndPc : Prop :=
  ∀ (s s₁ s₂ s₃ : State) (v lo hi : Byte),
    pull s = .ok (v, s₁) → pull s₁ = .ok (lo, s₂) → pull s₂ = .ok (hi, s₃) →
      exec .rti s = .next { s with
        p := Status.ofByte s.par.bFlagModel s.p v
        sp := s.sp + 3
        pc := wordOf hi lo
        draws := s₃.draws }

/-- R228, R229, R252: a BRK and, after a handler that leaves SP, the three stack bytes and the parameters as the entry left them, an
RTI continue two past the BRK with the flags it had; under `latched` B is 1, as the pushed byte says, under `push_only` B is not
written. -/
def Obligations.BreakThenReturn : Prop :=
  ∀ s : State, s.PlainMemory →
    ∃ t, exec .brk s = .next t ∧
      ∀ u : State, u.sp = t.sp → u.par = t.par →
        u.mem.read (stackAddress s.sp).toNat = t.mem.read (stackAddress s.sp).toNat →
        u.mem.read (stackAddress (s.sp - 1)).toNat = t.mem.read (stackAddress (s.sp - 1)).toNat →
        u.mem.read (stackAddress (s.sp - 2)).toNat = t.mem.read (stackAddress (s.sp - 2)).toNat →
        exec .rti u = .next { u with
          sp := s.sp
          pc := s.pc + 2
          p := { s.p with b := if s.par.bFlagModel = .latched then true else u.p.b } }

/-- R247, R249, R250, R251: a step samples the inputs once, and nothing else changes by that. That they are a list of samples, of
which a step takes the next one's levels and latches its edge beside one not yet served, and that after its end they stay as they
were, is the model's choice (notes/assumptions/5.md), not R250's. Then the step serves RESET, then NMI, whose edge it forgets, then IRQ where I is 0, and otherwise
executes the instruction it fetches. -/
def Obligations.StepServesEventsInOrder : Prop :=
  (∀ s : State, s.inputs = [] → sampleInputs s = s) ∧
    (∀ (s : State) (i : InputSample) (rest : List InputSample), s.inputs = i :: rest →
      sampleInputs s = { s with
        inputs := rest
        resetLine := i.reset
        irq := i.irq
        nmiPending := s.nmiPending || i.nmiEdge }) ∧
    ∀ s u : State, sampleInputs s = u →
      (u.resetLine = true → step s = outcome (resetEvent u)) ∧
        (u.resetLine = false → u.nmiPending = true →
          step s = outcome (takeInterrupt .nmi { u with nmiPending := false })) ∧
        (u.resetLine = false → u.nmiPending = false → u.irq = true → u.p.i = false →
          step s = outcome (takeInterrupt .irq u)) ∧
        (u.resetLine = false → u.nmiPending = false → (u.irq = false ∨ u.p.i = true) →
          (∀ i t, fetchInstr u = .ok (i, t) → step s = exec i t) ∧ ∀ r, fetchInstr u = .error r → step s = .refused r)

/-- R281, R282: the reset event sets I and PC and forgets a pending edge; memory is not written. What the other registers and flags
become is not said: R281 leaves it open. -/
def Obligations.ResetEventRule : Prop :=
  ∀ s : State, s.isIo 0xFFFC = false → s.isIo 0xFFFD = false →
    s.kindAt 0xFFFC ≠ .unmapped → s.kindAt 0xFFFD ≠ .unmapped →
      ∃ t, resetEvent s = .ok t ∧ t.p.i = true ∧ t.nmiPending = false ∧ t.mem = s.mem ∧ t.par = s.par ∧
        t.pc.toNat = (s.mem.read 0xFFFD).toNat * 256 + (s.mem.read 0xFFFC).toNat ∧
        t.irq = s.irq ∧ t.resetLine = s.resetLine ∧ t.inputs = s.inputs

/-! The whole machine. -/

/-- R8, R15: where the bytes at PC, read as plain memory, decode to an instruction and no event is pending, the step is the
execution of that instruction. -/
def Obligations.StepRunsTheDecodedInstruction : Prop :=
  ∀ (s u : State) (i : Instr) (rest : List Byte), sampleInputs s = u → pendingEvent u = none →
    (∀ k : Nat, k < (encode i).length →
      u.isIo (u.pc + BitVec.ofNat 16 k) = false ∧ u.kindAt (u.pc + BitVec.ofNat 16 k) ≠ .unmapped) →
    decode u.par.hasRor [u.mem.read u.pc.toNat, u.mem.read (u.pc + 1).toNat, u.mem.read (u.pc + 2).toNat] =
      .ok (i, rest) →
    step s = exec i u

/-- R241, R243: on a platform without device regions every instruction of the part completes, but a JSR that would overwrite its
own last byte (R211), a JMP through a pointer at the end of a page while `JMP_IND_PAGE_WRAP` is unset (R83) and a reserved opcode
(R97). -/
def Obligations.EveryInstructionCompletes : Prop :=
  ∀ (i : Instr) (s : State), s.NoDevices →
    (∀ a, i = .jsr a → jsrOverlaps s = false) →
    (∀ a, i = .jmpInd a → loByte a = 0xFF → s.par.jmpIndPageWrap ≠ .unset) →
    (∀ op, i ≠ .reserved op) → ∃ t, exec i s = .next t

/-- R243 (a) to (d): an instruction is refused only as a reserved opcode, a JMP through a pointer at the end of a page while the
parameter is unset, a JSR over its own last byte, or by an access to a device region; and a step is refused only by the instruction
it fetches, or by an access to a device region in its fetch or in serving an event. The end of a run by `HALT_CONDITION`, R243 (e),
is no refusal. -/
def Obligations.OnlyTheListedStops : Prop :=
  (∀ (i : Instr) (s : State) (r : Refusal), exec i s = .refused r →
    (∃ op, i = .reserved op ∧ r = .reservedOpcode op) ∨
      (∃ a, i = .jmpInd a ∧ loByte a = 0xFF ∧ s.par.jmpIndPageWrap = .unset ∧ r = .jmpIndirectPageEnd a) ∨
      (∃ a, i = .jsr a ∧ jsrOverlaps s = true ∧ r = .jsrOverwritesOperand (s.pc + 2)) ∨
      ∃ a, s.isIo a = true ∧ r = .ioRegion a) ∧
    ∀ (s : State) (r : Refusal), step s = .refused r →
      (∃ a, s.isIo a = true ∧ r = .ioRegion a) ∨
        pendingEvent (sampleInputs s) = none ∧
          ∃ i t, fetchInstr (sampleInputs s) = .ok (i, t) ∧ exec i t = .refused r

/-- R50, R243 (d): an instruction that comes to a device region among the addresses it accesses is refused there, and so does not
complete: in its operand; and of the two zero-page bytes of its pointer, the stack bytes, the bytes of the vector and the bytes of
a JMP's pointer, in the order the rules access them, at the first one in such a region. -/
def Obligations.DeviceAccessesAreRefused : Prop :=
  ∀ (i : Instr) (s : State),
    (∀ m, memFormOf i = some m →
      (∀ r, effectiveAddress m s = .error r → exec i s = .refused r) ∧
        ∀ ea t, effectiveAddress m s = .ok (ea, t) → s.isIo ea = true → exec i s = .refused (.ioRegion ea)) ∧
      (∀ (b z : Byte) (d : Word),
        (memFormOf i = some (.izx b) ∧ z = b + s.x ∨ memFormOf i = some (.izy b) ∧ z = b) →
        [zeroPage z, zeroPage (z + 1)].find? s.isIo = some d → exec i s = .refused (.ioRegion d)) ∧
      ∀ (a : Word) (accesses : List Word) (d : Word),
        (i, accesses) ∈ ([(.pha, [stackAddress s.sp]), (.php, [stackAddress s.sp]),
          (.pla, [stackAddress (s.sp + 1)]), (.plp, [stackAddress (s.sp + 1)]),
          (.jsr a, if jsrOverlaps s then [] else [stackAddress s.sp, stackAddress (s.sp - 1)]),
          (.rts, [stackAddress (s.sp + 1), stackAddress (s.sp + 2)]),
          (.brk, [stackAddress s.sp, stackAddress (s.sp - 1), stackAddress (s.sp - 2), 0xFFFE, 0xFFFF]),
          (.rti, [stackAddress (s.sp + 1), stackAddress (s.sp + 2), stackAddress (s.sp + 3)]),
          (.jmpInd a, if loByte a ≠ 0xFF then [a, a + 1] else
            match s.par.jmpIndPageWrap with
            | .unset => [a]
            | .samePage => [a, wordOf (hiByte a) 0x00]
            | .nextPage => [a, a + 1])] : List (Instr × List Word)) →
        accesses.find? s.isIo = some d → exec i s = .refused (.ioRegion d)

/-- R31, R41: the canonical form, in which the model keeps the 65536 bytes, is an invariant of every step from every state that
has it. The form is the model's choice (notes/assumptions/23.md, with 2.md), which neither rule speaks of. -/
def Obligations.StepKeepsTheMemoryForm : Prop :=
  ∀ s t : State, s.Inv → step s = .next t → t.Inv

/-- R33: the reset state has I = 1, no edge pending and PC the word at 0xFFFC. The model's choice, not R33's: the other registers and
flags are 0 (notes/assumptions/1.md), memory lists nothing (2.md), the parameters have their defaults (3.md), and no request is
driven (5.md). -/
def Obligations.ResetState : Prop :=
  State.reset.Inv ∧ State.reset.p.i = true ∧ State.reset.nmiPending = false ∧
    (∃ w, read16 0xFFFC State.reset = .ok (w, State.reset) ∧ State.reset.pc = w) ∧
    State.reset.par = Params.standard ∧ State.reset.mem = [] ∧ State.reset.irq = false ∧
    State.reset.resetLine = false ∧ State.reset.inputs = [] ∧
    State.reset.a = 0 ∧ State.reset.x = 0 ∧ State.reset.y = 0 ∧ State.reset.sp = 0 ∧
    State.reset.p = { n := false, v := false, b := false, d := false, i := true, z := false, c := false }

/-- R3: no step changes a parameter of the part or of its platform. -/
def Obligations.StepKeepsTheParameters : Prop :=
  ∀ s t : State, step s = .next t → t.par = s.par

/-- R11 to R13, R16, R32: which instructions write A, X, Y and SP; none writes an input line, the schedule of the inputs or a
parameter. -/
def Obligations.RegisterWriters : Prop :=
  ∀ (i : Instr) (s t : State), exec i s = .next t →
    (t.a ≠ s.a → mnemonic i ∈ ["ADC", "AND", "EOR", "LDA", "ORA", "PLA", "SBC", "TXA", "TYA"] ∨
        (mnemonic i ∈ ["ASL", "LSR", "ROL", "ROR"] ∧ formOf i = some .acc)) ∧
      (t.x ≠ s.x → mnemonic i ∈ ["DEX", "INX", "LDX", "TAX", "TSX"]) ∧
      (t.y ≠ s.y → mnemonic i ∈ ["DEY", "INY", "LDY", "TAY"]) ∧
      (t.sp ≠ s.sp → mnemonic i ∈ ["TXS", "PHA", "PHP", "PLA", "PLP", "JSR", "RTS", "BRK", "RTI"]) ∧
      t.irq = s.irq ∧ t.nmiPending = s.nmiPending ∧ t.resetLine = s.resetLine ∧ t.inputs = s.inputs ∧ t.par = s.par

/-- R20, R21, R25 to R30: which instructions write which flag. -/
def Obligations.FlagWriters : Prop :=
  ∀ (i : Instr) (s t : State), exec i s = .next t →
    (t.p.c ≠ s.p.c → mnemonic i ∈ ["ADC", "SBC", "CMP", "CPX", "CPY", "ASL", "LSR", "ROL", "ROR", "CLC", "SEC", "PLP", "RTI"]) ∧
      (t.p.v ≠ s.p.v → mnemonic i ∈ ["ADC", "SBC", "BIT", "CLV", "PLP", "RTI"]) ∧
      (t.p.d ≠ s.p.d → mnemonic i ∈ ["CLD", "SED", "PLP", "RTI"]) ∧
      (t.p.i ≠ s.p.i → mnemonic i ∈ ["CLI", "SEI", "BRK", "PLP", "RTI"]) ∧
      (t.p.b ≠ s.p.b → mnemonic i ∈ ["BRK", "PLP", "RTI"]) ∧
      ((t.p.n ≠ s.p.n ∨ t.p.z ≠ s.p.z) → mnemonic i ∈ ["ADC", "SBC", "AND", "EOR", "ORA", "LDA", "LDX", "LDY", "PLA", "TAX",
        "TAY", "TSX", "TXA", "TYA", "INC", "INX", "INY", "DEC", "DEX", "DEY", "ASL", "LSR", "ROL", "ROR", "CMP", "CPX", "CPY",
        "BIT", "PLP", "RTI"])

/-- R46, R49, R51: which instructions store; and no byte differs after an instruction but the one at the effective address of its
operand, those where PHA, PHP, JSR and BRK push one, two or three bytes, and none where the instruction stores nothing. -/
def Obligations.MemoryWriters : Prop :=
  ∀ (i : Instr) (s t : State), exec i s = .next t →
    (t.mem ≠ s.mem → mnemonic i ∈ ["STA", "STX", "STY", "INC", "DEC", "PHA", "PHP", "JSR", "BRK"] ∨
        (mnemonic i ∈ ["ASL", "LSR", "ROL", "ROR"] ∧ formOf i ≠ some .acc)) ∧
      ∀ c : Nat,
        (∀ m ea u, memFormOf i = some m → effectiveAddress m s = .ok (ea, u) → c ≠ ea.toNat) →
        (mnemonic i ∈ ["PHA", "PHP", "JSR", "BRK"] → c ≠ (stackAddress s.sp).toNat) →
        (mnemonic i ∈ ["JSR", "BRK"] → c ≠ (stackAddress (s.sp - 1)).toNat) →
        (mnemonic i = "BRK" → c ≠ (stackAddress (s.sp - 2)).toNat) →
          t.mem.read c = s.mem.read c

/-- R15: every instruction but a taken branch, JMP, JSR, RTS, RTI and BRK ends with PC past its own bytes, modulo 65536. -/
def Obligations.PcAdvancesPastTheInstruction : Prop :=
  ∀ (i : Instr) (s t : State), exec i s = .next t →
    mnemonic i ∉ ["JMP", "JSR", "RTS", "RTI", "BRK"] →
      t.pc = s.pc + BitVec.ofNat 16 (encode i).length ∨
        (formOf i = some .rel ∧ ∃ b, t.pc = branchTarget s.par.relOffset s.pc b ∧ (encode i).tail = [b])

/-- R89, R204, R295: the table of R295, row by row; the reads it marks `+p` take one cycle more where the index crosses a page;
a branch takes 2 cycles, or taken 3 in the page of `npc` and 4 to another. -/
def Obligations.CycleCounts : Prop :=
  (∀ (i : Instr) (s : State) (names : List String) (row : List (Form × Nat)) (f : Form) (n : Nat),
    (names, row) ∈ ([
      (["ADC", "AND", "CMP", "EOR", "LDA", "ORA", "SBC"], [(.imm, 2), (.zp, 3), (.zpx, 4), (.abs, 4), (.izx, 6)]),
      (["ASL", "LSR", "ROL", "ROR"], [(.acc, 2), (.zp, 5), (.zpx, 6), (.abs, 6), (.abx, 7)]),
      (["BIT"], [(.zp, 3), (.abs, 4)]),
      (["CPX", "CPY"], [(.imm, 2), (.zp, 3), (.abs, 4)]),
      (["DEC", "INC"], [(.zp, 5), (.zpx, 6), (.abs, 6), (.abx, 7)]),
      (["JMP"], [(.abs, 3), (.ind, 5)]),
      (["JSR"], [(.abs, 6)]),
      (["LDX"], [(.imm, 2), (.zp, 3), (.zpy, 4), (.abs, 4)]),
      (["LDY"], [(.imm, 2), (.zp, 3), (.zpx, 4), (.abs, 4)]),
      (["STA"], [(.zp, 3), (.zpx, 4), (.abs, 4), (.abx, 5), (.aby, 5), (.izx, 6), (.izy, 6)]),
      (["STX"], [(.zp, 3), (.zpy, 4), (.abs, 4)]),
      (["STY"], [(.zp, 3), (.zpx, 4), (.abs, 4)]),
      (["CLC", "CLD", "CLI", "CLV", "SEC", "SED", "SEI", "NOP", "DEX", "DEY", "INX", "INY", "TAX", "TAY", "TSX", "TXA", "TXS",
        "TYA"], [(.imp, 2)]),
      (["PHA", "PHP"], [(.imp, 3)]), (["PLA", "PLP"], [(.imp, 4)]), (["RTS", "RTI"], [(.imp, 6)]), (["BRK"], [(.imp, 7)])] :
        List (List String × List (Form × Nat))) →
    mnemonic i ∈ names → formOf i = some f → (f, n) ∈ row → instrCycles i s = some n) ∧
  (∀ (i : Instr) (s : State), mnemonic i ∈ ["ADC", "AND", "CMP", "EOR", "LDA", "LDX", "LDY", "ORA", "SBC"] →
    (∀ a, memFormOf i = some (.abx a) → instrCycles i s = some (if (loByte a).toNat + s.x.toNat > 0xFF then 5 else 4)) ∧
      (∀ a, memFormOf i = some (.aby a) → instrCycles i s = some (if (loByte a).toNat + s.y.toNat > 0xFF then 5 else 4)) ∧
      ∀ (b : Byte) (base : Word) (t : State), memFormOf i = some (.izy b) → read16zp b s = .ok (base, t) →
        instrCycles i s = some (if (loByte base).toNat + s.y.toNat > 0xFF then 6 else 5)) ∧
  ∀ (i : Instr) (b : Byte) (taken : Bool) (s : State),
    (i, taken) ∈ ([(.bcc b, !s.p.c), (.bcs b, s.p.c), (.beq b, s.p.z), (.bmi b, s.p.n), (.bne b, !s.p.z), (.bpl b, !s.p.n),
      (.bvc b, !s.p.v), (.bvs b, s.p.v)] : List (Instr × Bool)) →
      instrCycles i s = some (if taken = false then 2 else
        if hiByte (branchTarget s.par.relOffset s.pc b) = hiByte (s.pc + 2) then 3 else 4)
end

