-- ==== Sys2Proof/Laws/Flags.lean ====
section
/-! SUPPORT. The small lemmas of the flag computations: the bits of the status byte, `SetP` and `SetNZ` field by field. -/

namespace Sys2Proof.Machine

theorem Status.toByte_bits (p : Status) :
    p.toByte.getLsbD 7 = p.n ∧ p.toByte.getLsbD 6 = p.v ∧ p.toByte.getLsbD 5 = true ∧ p.toByte.getLsbD 4 = p.b ∧
      p.toByte.getLsbD 3 = p.d ∧ p.toByte.getLsbD 2 = p.i ∧ p.toByte.getLsbD 1 = p.z ∧ p.toByte.getLsbD 0 = p.c := by
  obtain ⟨n, v, b, d, i, z, c⟩ := p
  cases n <;> cases v <;> cases b <;> cases d <;> cases i <;> cases z <;> cases c <;> decide

/-- `PHP` then `PLP` leaves every flag as it was (R144), under `latched`. -/
theorem Status.ofByte_toByte (old p : Status) : Status.ofByte .latched old p.toByte = p := by
  obtain ⟨h7, h6, -, h4, h3, h2, h1, h0⟩ := p.toByte_bits
  simp only [Status.ofByte, h7, h6, h4, h3, h2, h1, h0]

@[simp] theorem Status.setNZ_n (p : Status) (r : Byte) : (p.setNZ r).n = r.msb := rfl
@[simp] theorem Status.setNZ_v (p : Status) (r : Byte) : (p.setNZ r).v = p.v := rfl
@[simp] theorem Status.setNZ_b (p : Status) (r : Byte) : (p.setNZ r).b = p.b := rfl
@[simp] theorem Status.setNZ_d (p : Status) (r : Byte) : (p.setNZ r).d = p.d := rfl
@[simp] theorem Status.setNZ_i (p : Status) (r : Byte) : (p.setNZ r).i = p.i := rfl
@[simp] theorem Status.setNZ_z (p : Status) (r : Byte) : (p.setNZ r).z = (r == 0) := rfl
@[simp] theorem Status.setNZ_c (p : Status) (r : Byte) : (p.setNZ r).c = p.c := rfl

/-- ADC, SBC: I, D and B are never changed (R150, R151). -/
theorem Status.setAlu_keeps (p : Status) (r : AluResult) :
    (p.setAlu r).b = p.b ∧ (p.setAlu r).d = p.d ∧ (p.setAlu r).i = p.i := ⟨rfl, rfl, rfl⟩

/-- A compare changes N, Z and C only (R152). -/
theorem Status.setCompare_keeps (p : Status) (r m : Byte) :
    (p.setCompare r m).v = p.v ∧ (p.setCompare r m).b = p.b ∧ (p.setCompare r m).d = p.d ∧
      (p.setCompare r m).i = p.i := ⟨rfl, rfl, rfl, rfl⟩

/-- A shift or rotate changes N, Z and C only (R175). -/
theorem Status.setShift_keeps (p : Status) (r : Byte × Bool) :
    (p.setShift r).v = p.v ∧ (p.setShift r).b = p.b ∧ (p.setShift r).d = p.d ∧ (p.setShift r).i = p.i :=
  ⟨rfl, rfl, rfl, rfl⟩

end Sys2Proof.Machine
end

