-- ==== Sys2Proof/Laws/Memory.lean ====
section
/-! SUPPORT. The laws of memory as data: a read after a write, and the canonical form. The read laws hold of every list, the
canonical form is kept by every write. -/

namespace Sys2Proof.Machine

@[simp] theorem Memory.read_nil (a : Nat) : Memory.read [] a = Config.unlistedByte := rfl

theorem Memory.read_cons (k : Nat) (v : Byte) (rest : Memory) (a : Nat) :
    Memory.read ((k, v) :: rest) a = if a = k then v else Memory.read rest a := rfl

theorem Memory.read_filter_other (m : Memory) (a b : Nat) (h : b ≠ a) :
    Memory.read (m.filter (fun p => p.1 != a)) b = Memory.read m b := by
  induction m with
  | nil => rfl
  | cons c rest ih =>
    obtain ⟨k, v⟩ := c
    by_cases hk : k = a
    · subst hk; simp [ih, Memory.read_cons, h]
    · simp [hk, ih, Memory.read_cons]

theorem Memory.read_filter_same (m : Memory) (a : Nat) :
    Memory.read (m.filter (fun p => p.1 != a)) a = Config.unlistedByte := by
  induction m with
  | nil => rfl
  | cons c rest ih =>
    obtain ⟨k, v⟩ := c
    by_cases hk : k = a
    · subst hk; simpa using ih
    · simp [hk, ih, Memory.read_cons, Ne.symm hk]

theorem Memory.read_insert_other (m : Memory) (a b : Nat) (v : Byte) (h : b ≠ a) :
    Memory.read (m.insert a v) b = Memory.read m b := by
  induction m with
  | nil => simp [Memory.insert, Memory.read_cons, h]
  | cons c rest ih =>
    obtain ⟨k, w⟩ := c
    unfold Memory.insert
    split <;> simp [Memory.read_cons, h, ih]

theorem Memory.read_insert_same (m : Memory) (a : Nat) (v : Byte) (h : ∀ p ∈ m, p.1 ≠ a) :
    Memory.read (m.insert a v) a = v := by
  induction m with
  | nil => simp [Memory.insert, Memory.read_cons]
  | cons c rest ih =>
    obtain ⟨k, w⟩ := c
    have hk : a ≠ k := fun e => h (k, w) (by simp) e.symm
    have hr := ih (fun p hp => h p (List.mem_cons_of_mem _ hp))
    unfold Memory.insert
    split <;> simp [Memory.read_cons, hk, hr]

/-- A read after a write to the same address gives the value written. -/
@[simp] theorem Memory.read_write_same (m : Memory) (a : Nat) (v : Byte) : (m.write a v).read a = v := by
  unfold Memory.write
  split
  · next h => rw [h]; exact Memory.read_filter_same m a
  · exact Memory.read_insert_same _ a v (fun p hp => by simpa using (List.mem_filter.mp hp).2)

/-- A write leaves every other address alone. -/
theorem Memory.read_write_other (m : Memory) (a b : Nat) (v : Byte) (h : b ≠ a) :
    (m.write a v).read b = m.read b := by
  unfold Memory.write
  split
  · exact Memory.read_filter_other m a b h
  · rw [Memory.read_insert_other _ a b v h]; exact Memory.read_filter_other m a b h

theorem Memory.mem_insert {m : Memory} {a : Nat} {v : Byte} {p : Host.Cell} (h : p ∈ m.insert a v) :
    p = (a, v) ∨ p ∈ m := by
  induction m with
  | nil => simpa [Memory.insert] using h
  | cons c rest ih =>
    obtain ⟨k, w⟩ := c
    unfold Memory.insert at h
    split at h
    · simpa using h
    · rcases List.mem_cons.mp h with h | h
      · exact .inr (by simp [h])
      · rcases ih h with h | h
        · exact .inl h
        · exact .inr (List.mem_cons_of_mem _ h)

theorem Memory.insert_pairwise (m : Memory) (a : Nat) (v : Byte) (h : m.Pairwise (fun p q => p.1 < q.1))
    (ha : ∀ p ∈ m, p.1 ≠ a) : (m.insert a v).Pairwise (fun p q => p.1 < q.1) := by
  induction m with
  | nil => simp [Memory.insert]
  | cons c rest ih =>
    obtain ⟨k, w⟩ := c
    obtain ⟨hk, hrest⟩ := List.pairwise_cons.mp h
    have hne : k ≠ a := ha (k, w) (by simp)
    unfold Memory.insert
    split
    · next hlt =>
      refine List.pairwise_cons.mpr ⟨fun p hp => ?_, h⟩
      rcases List.mem_cons.mp hp with rfl | hp
      · exact hlt
      · exact Nat.lt_trans hlt (hk p hp)
    · next hlt =>
      refine List.pairwise_cons.mpr ⟨fun p hp => ?_, ih hrest (fun p hp => ha p (List.mem_cons_of_mem _ hp))⟩
      rcases Memory.mem_insert hp with rfl | hp
      · show k < a; omega
      · exact hk p hp

theorem Memory.wf_nil : Memory.wf [] := ⟨List.Pairwise.nil, by simp⟩

/-- Every write keeps the canonical form. -/
theorem Memory.write_wf (m : Memory) (a : Nat) (v : Byte) (h : m.wf) (ha : a < 65536) : (m.write a v).wf := by
  have hf : (m.filter (fun p => p.1 != a)).Pairwise (fun p q => p.1 < q.1) := h.1.filter _
  have hm : ∀ p ∈ m.filter (fun p => p.1 != a), p.1 < 65536 ∧ p.2 ≠ Config.unlistedByte :=
    fun p hp => h.2 p (List.mem_filter.mp hp).1
  unfold Memory.write
  split
  · exact ⟨hf, hm⟩
  · next hv =>
    refine ⟨Memory.insert_pairwise _ a v hf (fun p hp => by simpa using (List.mem_filter.mp hp).2), fun p hp => ?_⟩
    rcases Memory.mem_insert hp with rfl | hp
    · exact ⟨ha, hv⟩
    · exact hm p hp

theorem Memory.read_of_forall_gt (m : Memory) (a : Nat) (h : ∀ p ∈ m, a < p.1) :
    m.read a = Config.unlistedByte := by
  induction m with
  | nil => rfl
  | cons c rest ih =>
    obtain ⟨k, v⟩ := c
    have hk : a < k := h (k, v) (by simp)
    rw [Memory.read_cons, if_neg (by omega), ih (fun p hp => h p (List.mem_cons_of_mem _ hp))]

/-- Two canonical memories that read alike at every address are the same list. -/
theorem Memory.eq_of_read_eq (m n : Memory) (hm : m.wf) (hn : n.wf) (h : ∀ a, m.read a = n.read a) : m = n := by
  induction m generalizing n with
  | nil =>
    cases n with
    | nil => rfl
    | cons c rest =>
      obtain ⟨k, v⟩ := c
      exact absurd (by simpa [Memory.read_cons] using (h k).symm) (hn.2 (k, v) (by simp)).2
  | cons c rest ih =>
    obtain ⟨k, v⟩ := c
    obtain ⟨hk, hrest⟩ := List.pairwise_cons.mp hm.1
    have hv : v ≠ Config.unlistedByte := (hm.2 (k, v) (by simp)).2
    cases n with
    | nil => exact absurd (by simpa [Memory.read_cons] using h k) hv
    | cons d rest' =>
      obtain ⟨l, w⟩ := d
      obtain ⟨hl, hrest'⟩ := List.pairwise_cons.mp hn.1
      have hw : w ≠ Config.unlistedByte := (hn.2 (l, w) (by simp)).2
      have hkl : k = l := by
        rcases Nat.lt_trichotomy k l with hlt | heq | hgt
        · have := h k
          rw [Memory.read_cons, if_pos rfl, Memory.read_of_forall_gt _ k (fun p hp => ?_)] at this
          · exact absurd this hv
          · rcases List.mem_cons.mp hp with rfl | hp
            · exact hlt
            · exact Nat.lt_trans hlt (hl p hp)
        · exact heq
        · have := h l
          rw [Memory.read_cons (k := l), if_pos rfl, Memory.read_of_forall_gt _ l (fun p hp => ?_)] at this
          · exact absurd this.symm hw
          · rcases List.mem_cons.mp hp with rfl | hp
            · exact hgt
            · exact Nat.lt_trans hgt (hk p hp)
      subst hkl
      have hvw : v = w := by simpa [Memory.read_cons] using h k
      subst hvw
      have hr : ∀ a, Memory.read rest a = Memory.read rest' a := by
        intro a
        by_cases ha : a = k
        · subst ha
          rw [Memory.read_of_forall_gt rest a hk, Memory.read_of_forall_gt rest' a hl]
        · simpa [Memory.read_cons, ha] using h a
      rw [ih rest' ⟨hrest, fun p hp => hm.2 p (List.mem_cons_of_mem _ hp)⟩
        ⟨hrest', fun p hp => hn.2 p (List.mem_cons_of_mem _ hp)⟩ hr]

end Sys2Proof.Machine
end

