-- ==== Sys2Proof/Laws/State.lean ====
section
/-! SUPPORT. One lemma for each field under each update of the state, true by `rfl`, so that no proof unfolds a record
update; and what the memory map answers after an update. -/

namespace Sys2Proof.Machine

@[simp] theorem State.setA_a (s : State) (v : Byte) : (s.setA v).a = v := rfl
@[simp] theorem State.setA_x (s : State) (v : Byte) : (s.setA v).x = s.x := rfl
@[simp] theorem State.setA_y (s : State) (v : Byte) : (s.setA v).y = s.y := rfl
@[simp] theorem State.setA_sp (s : State) (v : Byte) : (s.setA v).sp = s.sp := rfl
@[simp] theorem State.setA_pc (s : State) (v : Byte) : (s.setA v).pc = s.pc := rfl
@[simp] theorem State.setA_p (s : State) (v : Byte) : (s.setA v).p = s.p := rfl
@[simp] theorem State.setA_mem (s : State) (v : Byte) : (s.setA v).mem = s.mem := rfl
@[simp] theorem State.setA_irq (s : State) (v : Byte) : (s.setA v).irq = s.irq := rfl
@[simp] theorem State.setA_nmiPending (s : State) (v : Byte) : (s.setA v).nmiPending = s.nmiPending := rfl
@[simp] theorem State.setA_resetLine (s : State) (v : Byte) : (s.setA v).resetLine = s.resetLine := rfl
@[simp] theorem State.setA_inputs (s : State) (v : Byte) : (s.setA v).inputs = s.inputs := rfl
@[simp] theorem State.setA_draws (s : State) (v : Byte) : (s.setA v).draws = s.draws := rfl
@[simp] theorem State.setA_par (s : State) (v : Byte) : (s.setA v).par = s.par := rfl
@[simp] theorem State.setA_isIo (s : State) (v : Byte) (a : Word) : (s.setA v).isIo a = s.isIo a := rfl
@[simp] theorem State.setA_kindAt (s : State) (v : Byte) (a : Word) : (s.setA v).kindAt a = s.kindAt a := rfl
@[simp] theorem State.setA_setA (s : State) (v w : Byte) : (s.setA v).setA w = s.setA w := rfl
@[simp] theorem State.setA_self (s : State) : s.setA s.a = s := rfl

@[simp] theorem State.setX_a (s : State) (v : Byte) : (s.setX v).a = s.a := rfl
@[simp] theorem State.setX_x (s : State) (v : Byte) : (s.setX v).x = v := rfl
@[simp] theorem State.setX_y (s : State) (v : Byte) : (s.setX v).y = s.y := rfl
@[simp] theorem State.setX_sp (s : State) (v : Byte) : (s.setX v).sp = s.sp := rfl
@[simp] theorem State.setX_pc (s : State) (v : Byte) : (s.setX v).pc = s.pc := rfl
@[simp] theorem State.setX_p (s : State) (v : Byte) : (s.setX v).p = s.p := rfl
@[simp] theorem State.setX_mem (s : State) (v : Byte) : (s.setX v).mem = s.mem := rfl
@[simp] theorem State.setX_irq (s : State) (v : Byte) : (s.setX v).irq = s.irq := rfl
@[simp] theorem State.setX_nmiPending (s : State) (v : Byte) : (s.setX v).nmiPending = s.nmiPending := rfl
@[simp] theorem State.setX_resetLine (s : State) (v : Byte) : (s.setX v).resetLine = s.resetLine := rfl
@[simp] theorem State.setX_inputs (s : State) (v : Byte) : (s.setX v).inputs = s.inputs := rfl
@[simp] theorem State.setX_draws (s : State) (v : Byte) : (s.setX v).draws = s.draws := rfl
@[simp] theorem State.setX_par (s : State) (v : Byte) : (s.setX v).par = s.par := rfl
@[simp] theorem State.setX_isIo (s : State) (v : Byte) (a : Word) : (s.setX v).isIo a = s.isIo a := rfl
@[simp] theorem State.setX_kindAt (s : State) (v : Byte) (a : Word) : (s.setX v).kindAt a = s.kindAt a := rfl
@[simp] theorem State.setX_setX (s : State) (v w : Byte) : (s.setX v).setX w = s.setX w := rfl
@[simp] theorem State.setX_self (s : State) : s.setX s.x = s := rfl

@[simp] theorem State.setY_a (s : State) (v : Byte) : (s.setY v).a = s.a := rfl
@[simp] theorem State.setY_x (s : State) (v : Byte) : (s.setY v).x = s.x := rfl
@[simp] theorem State.setY_y (s : State) (v : Byte) : (s.setY v).y = v := rfl
@[simp] theorem State.setY_sp (s : State) (v : Byte) : (s.setY v).sp = s.sp := rfl
@[simp] theorem State.setY_pc (s : State) (v : Byte) : (s.setY v).pc = s.pc := rfl
@[simp] theorem State.setY_p (s : State) (v : Byte) : (s.setY v).p = s.p := rfl
@[simp] theorem State.setY_mem (s : State) (v : Byte) : (s.setY v).mem = s.mem := rfl
@[simp] theorem State.setY_irq (s : State) (v : Byte) : (s.setY v).irq = s.irq := rfl
@[simp] theorem State.setY_nmiPending (s : State) (v : Byte) : (s.setY v).nmiPending = s.nmiPending := rfl
@[simp] theorem State.setY_resetLine (s : State) (v : Byte) : (s.setY v).resetLine = s.resetLine := rfl
@[simp] theorem State.setY_inputs (s : State) (v : Byte) : (s.setY v).inputs = s.inputs := rfl
@[simp] theorem State.setY_draws (s : State) (v : Byte) : (s.setY v).draws = s.draws := rfl
@[simp] theorem State.setY_par (s : State) (v : Byte) : (s.setY v).par = s.par := rfl
@[simp] theorem State.setY_isIo (s : State) (v : Byte) (a : Word) : (s.setY v).isIo a = s.isIo a := rfl
@[simp] theorem State.setY_kindAt (s : State) (v : Byte) (a : Word) : (s.setY v).kindAt a = s.kindAt a := rfl
@[simp] theorem State.setY_setY (s : State) (v w : Byte) : (s.setY v).setY w = s.setY w := rfl
@[simp] theorem State.setY_self (s : State) : s.setY s.y = s := rfl

@[simp] theorem State.setSp_a (s : State) (v : Byte) : (s.setSp v).a = s.a := rfl
@[simp] theorem State.setSp_x (s : State) (v : Byte) : (s.setSp v).x = s.x := rfl
@[simp] theorem State.setSp_y (s : State) (v : Byte) : (s.setSp v).y = s.y := rfl
@[simp] theorem State.setSp_sp (s : State) (v : Byte) : (s.setSp v).sp = v := rfl
@[simp] theorem State.setSp_pc (s : State) (v : Byte) : (s.setSp v).pc = s.pc := rfl
@[simp] theorem State.setSp_p (s : State) (v : Byte) : (s.setSp v).p = s.p := rfl
@[simp] theorem State.setSp_mem (s : State) (v : Byte) : (s.setSp v).mem = s.mem := rfl
@[simp] theorem State.setSp_irq (s : State) (v : Byte) : (s.setSp v).irq = s.irq := rfl
@[simp] theorem State.setSp_nmiPending (s : State) (v : Byte) : (s.setSp v).nmiPending = s.nmiPending := rfl
@[simp] theorem State.setSp_resetLine (s : State) (v : Byte) : (s.setSp v).resetLine = s.resetLine := rfl
@[simp] theorem State.setSp_inputs (s : State) (v : Byte) : (s.setSp v).inputs = s.inputs := rfl
@[simp] theorem State.setSp_draws (s : State) (v : Byte) : (s.setSp v).draws = s.draws := rfl
@[simp] theorem State.setSp_par (s : State) (v : Byte) : (s.setSp v).par = s.par := rfl
@[simp] theorem State.setSp_isIo (s : State) (v : Byte) (a : Word) : (s.setSp v).isIo a = s.isIo a := rfl
@[simp] theorem State.setSp_kindAt (s : State) (v : Byte) (a : Word) : (s.setSp v).kindAt a = s.kindAt a := rfl
@[simp] theorem State.setSp_setSp (s : State) (v w : Byte) : (s.setSp v).setSp w = s.setSp w := rfl
@[simp] theorem State.setSp_self (s : State) : s.setSp s.sp = s := rfl

@[simp] theorem State.setPc_a (s : State) (v : Word) : (s.setPc v).a = s.a := rfl
@[simp] theorem State.setPc_x (s : State) (v : Word) : (s.setPc v).x = s.x := rfl
@[simp] theorem State.setPc_y (s : State) (v : Word) : (s.setPc v).y = s.y := rfl
@[simp] theorem State.setPc_sp (s : State) (v : Word) : (s.setPc v).sp = s.sp := rfl
@[simp] theorem State.setPc_pc (s : State) (v : Word) : (s.setPc v).pc = v := rfl
@[simp] theorem State.setPc_p (s : State) (v : Word) : (s.setPc v).p = s.p := rfl
@[simp] theorem State.setPc_mem (s : State) (v : Word) : (s.setPc v).mem = s.mem := rfl
@[simp] theorem State.setPc_irq (s : State) (v : Word) : (s.setPc v).irq = s.irq := rfl
@[simp] theorem State.setPc_nmiPending (s : State) (v : Word) : (s.setPc v).nmiPending = s.nmiPending := rfl
@[simp] theorem State.setPc_resetLine (s : State) (v : Word) : (s.setPc v).resetLine = s.resetLine := rfl
@[simp] theorem State.setPc_inputs (s : State) (v : Word) : (s.setPc v).inputs = s.inputs := rfl
@[simp] theorem State.setPc_draws (s : State) (v : Word) : (s.setPc v).draws = s.draws := rfl
@[simp] theorem State.setPc_par (s : State) (v : Word) : (s.setPc v).par = s.par := rfl
@[simp] theorem State.setPc_isIo (s : State) (v : Word) (a : Word) : (s.setPc v).isIo a = s.isIo a := rfl
@[simp] theorem State.setPc_kindAt (s : State) (v : Word) (a : Word) : (s.setPc v).kindAt a = s.kindAt a := rfl
@[simp] theorem State.setPc_setPc (s : State) (v w : Word) : (s.setPc v).setPc w = s.setPc w := rfl
@[simp] theorem State.setPc_self (s : State) : s.setPc s.pc = s := rfl

@[simp] theorem State.setP_a (s : State) (v : Status) : (s.setP v).a = s.a := rfl
@[simp] theorem State.setP_x (s : State) (v : Status) : (s.setP v).x = s.x := rfl
@[simp] theorem State.setP_y (s : State) (v : Status) : (s.setP v).y = s.y := rfl
@[simp] theorem State.setP_sp (s : State) (v : Status) : (s.setP v).sp = s.sp := rfl
@[simp] theorem State.setP_pc (s : State) (v : Status) : (s.setP v).pc = s.pc := rfl
@[simp] theorem State.setP_p (s : State) (v : Status) : (s.setP v).p = v := rfl
@[simp] theorem State.setP_mem (s : State) (v : Status) : (s.setP v).mem = s.mem := rfl
@[simp] theorem State.setP_irq (s : State) (v : Status) : (s.setP v).irq = s.irq := rfl
@[simp] theorem State.setP_nmiPending (s : State) (v : Status) : (s.setP v).nmiPending = s.nmiPending := rfl
@[simp] theorem State.setP_resetLine (s : State) (v : Status) : (s.setP v).resetLine = s.resetLine := rfl
@[simp] theorem State.setP_inputs (s : State) (v : Status) : (s.setP v).inputs = s.inputs := rfl
@[simp] theorem State.setP_draws (s : State) (v : Status) : (s.setP v).draws = s.draws := rfl
@[simp] theorem State.setP_par (s : State) (v : Status) : (s.setP v).par = s.par := rfl
@[simp] theorem State.setP_isIo (s : State) (v : Status) (a : Word) : (s.setP v).isIo a = s.isIo a := rfl
@[simp] theorem State.setP_kindAt (s : State) (v : Status) (a : Word) : (s.setP v).kindAt a = s.kindAt a := rfl
@[simp] theorem State.setP_setP (s : State) (v w : Status) : (s.setP v).setP w = s.setP w := rfl
@[simp] theorem State.setP_self (s : State) : s.setP s.p = s := rfl

@[simp] theorem State.setMem_a (s : State) (v : Memory) : (s.setMem v).a = s.a := rfl
@[simp] theorem State.setMem_x (s : State) (v : Memory) : (s.setMem v).x = s.x := rfl
@[simp] theorem State.setMem_y (s : State) (v : Memory) : (s.setMem v).y = s.y := rfl
@[simp] theorem State.setMem_sp (s : State) (v : Memory) : (s.setMem v).sp = s.sp := rfl
@[simp] theorem State.setMem_pc (s : State) (v : Memory) : (s.setMem v).pc = s.pc := rfl
@[simp] theorem State.setMem_p (s : State) (v : Memory) : (s.setMem v).p = s.p := rfl
@[simp] theorem State.setMem_mem (s : State) (v : Memory) : (s.setMem v).mem = v := rfl
@[simp] theorem State.setMem_irq (s : State) (v : Memory) : (s.setMem v).irq = s.irq := rfl
@[simp] theorem State.setMem_nmiPending (s : State) (v : Memory) : (s.setMem v).nmiPending = s.nmiPending := rfl
@[simp] theorem State.setMem_resetLine (s : State) (v : Memory) : (s.setMem v).resetLine = s.resetLine := rfl
@[simp] theorem State.setMem_inputs (s : State) (v : Memory) : (s.setMem v).inputs = s.inputs := rfl
@[simp] theorem State.setMem_draws (s : State) (v : Memory) : (s.setMem v).draws = s.draws := rfl
@[simp] theorem State.setMem_par (s : State) (v : Memory) : (s.setMem v).par = s.par := rfl
@[simp] theorem State.setMem_isIo (s : State) (v : Memory) (a : Word) : (s.setMem v).isIo a = s.isIo a := rfl
@[simp] theorem State.setMem_kindAt (s : State) (v : Memory) (a : Word) : (s.setMem v).kindAt a = s.kindAt a := rfl
@[simp] theorem State.setMem_setMem (s : State) (v w : Memory) : (s.setMem v).setMem w = s.setMem w := rfl
@[simp] theorem State.setMem_self (s : State) : s.setMem s.mem = s := rfl

@[simp] theorem State.setDraws_a (s : State) (v : Nat) : (s.setDraws v).a = s.a := rfl
@[simp] theorem State.setDraws_x (s : State) (v : Nat) : (s.setDraws v).x = s.x := rfl
@[simp] theorem State.setDraws_y (s : State) (v : Nat) : (s.setDraws v).y = s.y := rfl
@[simp] theorem State.setDraws_sp (s : State) (v : Nat) : (s.setDraws v).sp = s.sp := rfl
@[simp] theorem State.setDraws_pc (s : State) (v : Nat) : (s.setDraws v).pc = s.pc := rfl
@[simp] theorem State.setDraws_p (s : State) (v : Nat) : (s.setDraws v).p = s.p := rfl
@[simp] theorem State.setDraws_mem (s : State) (v : Nat) : (s.setDraws v).mem = s.mem := rfl
@[simp] theorem State.setDraws_irq (s : State) (v : Nat) : (s.setDraws v).irq = s.irq := rfl
@[simp] theorem State.setDraws_nmiPending (s : State) (v : Nat) : (s.setDraws v).nmiPending = s.nmiPending := rfl
@[simp] theorem State.setDraws_resetLine (s : State) (v : Nat) : (s.setDraws v).resetLine = s.resetLine := rfl
@[simp] theorem State.setDraws_inputs (s : State) (v : Nat) : (s.setDraws v).inputs = s.inputs := rfl
@[simp] theorem State.setDraws_draws (s : State) (v : Nat) : (s.setDraws v).draws = v := rfl
@[simp] theorem State.setDraws_par (s : State) (v : Nat) : (s.setDraws v).par = s.par := rfl
@[simp] theorem State.setDraws_isIo (s : State) (v : Nat) (a : Word) : (s.setDraws v).isIo a = s.isIo a := rfl
@[simp] theorem State.setDraws_kindAt (s : State) (v : Nat) (a : Word) : (s.setDraws v).kindAt a = s.kindAt a := rfl
@[simp] theorem State.setDraws_setDraws (s : State) (v w : Nat) : (s.setDraws v).setDraws w = s.setDraws w := rfl
@[simp] theorem State.setDraws_self (s : State) : s.setDraws s.draws = s := rfl

end Sys2Proof.Machine
end

