-- ==== Sys2Proof/Laws/Ops.lean ====
section
/-! SUPPORT. What each shared operation can do, said once: a read changes nothing but the count of free values, a write one
byte of RAM, a push the stack pointer and one byte; and what the exception operations keep. -/

namespace Sys2Proof.Machine

/-- Sequencing answers exactly when both parts do. -/
theorem bind_ok {ε α β : Type} {x : Except ε α} {f : α → Except ε β} {b : β} :
    (x >>= f) = .ok b ↔ ∃ a, x = .ok a ∧ f a = .ok b := by
  cases x with
  | error e => simp [bind, Except.bind]
  | ok a => simp [bind, Except.bind]

theorem pure_ok {ε α : Type} {a b : α} : (pure a : Except ε α) = .ok b ↔ a = b := by
  simp [pure, Except.pure]

/-- An operation's outcome is a next state exactly where the operation answers it. -/
theorem outcome_next {r : Except Refusal State} {t : State} : outcome r = .next t ↔ r = .ok t := by
  cases r <;> simp [outcome]

/-- Sequencing is refused exactly where its first part is, or its second part after it. -/
theorem bind_error {ε α β : Type} {x : Except ε α} {f : α → Except ε β} {e : ε} :
    (x >>= f) = .error e ↔ x = .error e ∨ ∃ a, x = .ok a ∧ f a = .error e := by
  cases x with
  | error e' => simp [bind, Except.bind]
  | ok a => simp [bind, Except.bind]

/-- An operation's outcome is a refusal exactly where the operation is refused. -/
theorem outcome_refused {x : Except Refusal State} {r : Refusal} : outcome x = .refused r ↔ x = .error r := by
  cases x <;> simp [outcome]

/-- What every operation keeps: the parameters, and the canonical form of memory. -/
structure Keeps (s t : State) : Prop where
  par : t.par = s.par
  wf : s.mem.wf → t.mem.wf

theorem Keeps.refl (s : State) : Keeps s s := ⟨rfl, id⟩

theorem Keeps.trans {s t u : State} (h : Keeps s t) (k : Keeps t u) : Keeps s u :=
  ⟨k.par.trans h.par, k.wf ∘ h.wf⟩

theorem Keeps.of_eq {s t : State} (hp : t.par = s.par) (hm : t.mem = s.mem) : Keeps s t :=
  ⟨hp, fun h => hm ▸ h⟩

/-! Reads. -/

theorem readByte_frame {a : Word} {s t : State} {v : Byte} (h : readByte a s = .ok (v, t)) :
    ∃ n, t = s.setDraws n := by
  unfold readByte at h
  split at h
  · cases h
  · split at h <;> cases h <;> exact ⟨_, rfl⟩

/-- A read of an address that is mapped and no device gives the byte memory holds and changes nothing (R41). -/
theorem readByte_plain {a : Word} {s : State} (hio : s.isIo a = false) (hk : s.kindAt a ≠ .unmapped) :
    readByte a s = .ok (s.mem.read a.toNat, s) := by
  unfold readByte
  rw [if_neg (by simp [hio])]
  split
  · rfl
  · rfl
  · next h => exact absurd h hk

/-- A read answers exactly where no device is (R50). -/
theorem readByte_answers (a : Word) (s : State) : (∃ r, readByte a s = .ok r) ↔ s.isIo a = false := by
  unfold readByte
  cases hio : s.isIo a
  · simp only [Bool.false_eq_true, if_false, iff_true]
    split <;> exact ⟨_, rfl⟩
  · simp

/-- What a read of a mapped address answers is the byte memory holds (R41). -/
theorem readByte_mapped {a : Word} {s t : State} {v : Byte} (hk : s.kindAt a ≠ .unmapped) (h : readByte a s = .ok (v, t)) :
    v = s.mem.read a.toNat ∧ t = s := by
  rw [readByte_plain ((readByte_answers a s).mp ⟨_, h⟩) hk] at h
  cases h; exact ⟨rfl, rfl⟩

theorem read16_frame {a : Word} {s t : State} {w : Word} (h : read16 a s = .ok (w, t)) :
    ∃ n, t = s.setDraws n := by
  obtain ⟨⟨lo, s1⟩, h1, h⟩ := bind_ok.mp h
  obtain ⟨⟨hi, s2⟩, h2, h⟩ := bind_ok.mp h
  cases pure_ok.mp h
  obtain ⟨n1, rfl⟩ := readByte_frame h1
  obtain ⟨n2, rfl⟩ := readByte_frame h2
  exact ⟨n2, rfl⟩

theorem read16zp_frame {z : Byte} {s t : State} {w : Word} (h : read16zp z s = .ok (w, t)) :
    ∃ n, t = s.setDraws n := by
  obtain ⟨⟨lo, s1⟩, h1, h⟩ := bind_ok.mp h
  obtain ⟨⟨hi, s2⟩, h2, h⟩ := bind_ok.mp h
  cases pure_ok.mp h
  obtain ⟨n1, rfl⟩ := readByte_frame h1
  obtain ⟨n2, rfl⟩ := readByte_frame h2
  exact ⟨n2, rfl⟩

theorem Keeps.of_frame {s t : State} (h : ∃ n, t = s.setDraws n) : Keeps s t := by
  obtain ⟨n, rfl⟩ := h; exact .of_eq rfl rfl

/-- A read is refused only by a device region (R50). -/
theorem readByte_refused {a : Word} {s : State} {r : Refusal} (h : readByte a s = .error r) :
    s.isIo a = true ∧ r = .ioRegion a := by
  unfold readByte at h
  split at h
  · next hio => cases h; exact ⟨hio, rfl⟩
  · split at h <;> cases h

/-! Writes. -/

/-- All a write can do: store one byte of RAM, or nothing. -/
theorem writeByte_cases {a : Word} {v : Byte} {s t : State} (h : writeByte a v s = .ok t) :
    s.isIo a = false ∧ ((s.kindAt a = .ram ∧ t = s.setMem (s.mem.write a.toNat v)) ∨ (s.kindAt a ≠ .ram ∧ t = s)) := by
  unfold writeByte at h
  split at h
  · cases h
  · next hio =>
    refine ⟨by simpa using hio, ?_⟩
    split at h <;> cases h
    · next hk => exact .inl ⟨hk, rfl⟩
    · next hk => exact .inr ⟨by simp [hk], rfl⟩
    · next hk => exact .inr ⟨by simp [hk], rfl⟩

theorem writeByte_frame {a : Word} {v : Byte} {s t : State} (h : writeByte a v s = .ok t) : ∃ m, t = s.setMem m := by
  rcases (writeByte_cases h).2 with ⟨-, rfl⟩ | ⟨-, rfl⟩
  · exact ⟨_, rfl⟩
  · exact ⟨t.mem, rfl⟩

/-- A write leaves every other byte alone. -/
theorem writeByte_other {a : Word} {v : Byte} {s t : State} (h : writeByte a v s = .ok t) (b : Nat) (hb : b ≠ a.toNat) :
    t.mem.read b = s.mem.read b := by
  rcases (writeByte_cases h).2 with ⟨-, rfl⟩ | ⟨-, rfl⟩
  · exact Memory.read_write_other _ _ _ _ hb
  · rfl

theorem writeByte_keeps {a : Word} {v : Byte} {s t : State} (h : writeByte a v s = .ok t) : Keeps s t := by
  rcases (writeByte_cases h).2 with ⟨-, rfl⟩ | ⟨-, rfl⟩
  · exact ⟨rfl, fun hw => Memory.write_wf _ _ _ hw a.isLt⟩
  · exact .refl _

/-- A write answers exactly where no device is (R50). -/
theorem writeByte_answers (a : Word) (v : Byte) (s : State) : (∃ t, writeByte a v s = .ok t) ↔ s.isIo a = false := by
  unfold writeByte
  cases hio : s.isIo a
  · simp only [Bool.false_eq_true, if_false, iff_true]
    split <;> exact ⟨_, rfl⟩
  · simp

/-- A write is refused only by a device region (R50). -/
theorem writeByte_refused {a : Word} {v : Byte} {s : State} {r : Refusal} (h : writeByte a v s = .error r) :
    s.isIo a = true ∧ r = .ioRegion a := by
  unfold writeByte at h
  split at h
  · next hio => cases h; exact ⟨hio, rfl⟩
  · split at h <;> cases h

/-! The stack. -/

/-- All a push does: a write at the stack address, and SP one down (R46). -/
theorem push_cases {v : Byte} {s t : State} (h : push v s = .ok t) :
    ∃ u, writeByte (stackAddress s.sp) v s = .ok u ∧ t = u.setSp (s.sp - 1) := by
  obtain ⟨u, hu, h⟩ := bind_ok.mp h
  obtain ⟨m, hm⟩ := writeByte_frame hu
  exact ⟨u, hu, by rw [← pure_ok.mp h, hm]; rfl⟩

theorem push_frame {v : Byte} {s t : State} (h : push v s = .ok t) : ∃ m, t = (s.setMem m).setSp (s.sp - 1) := by
  obtain ⟨u, hu, rfl⟩ := push_cases h
  obtain ⟨m, rfl⟩ := writeByte_frame hu
  exact ⟨m, rfl⟩

theorem push_keeps {v : Byte} {s t : State} (h : push v s = .ok t) : Keeps s t := by
  obtain ⟨u, hu, rfl⟩ := push_cases h
  exact (writeByte_keeps hu).trans (.of_eq rfl rfl)

/-- All a pull does: SP one up, and a read at the stack address (R47). -/
theorem pull_frame {v : Byte} {s t : State} (h : pull s = .ok (v, t)) :
    ∃ n, t = (s.setSp (s.sp + 1)).setDraws n := readByte_frame h

theorem pull_keeps {v : Byte} {s t : State} (h : pull s = .ok (v, t)) : Keeps s t := by
  obtain ⟨n, rfl⟩ := pull_frame h; exact .of_eq rfl rfl

/-! Exceptions. -/

/-- All an interrupt entry does besides its frame in memory: SP three down, I set, B set by BRK under `latched`, PC from the
vector (R245). -/
theorem takeInterrupt_cases {k : InterruptKind} {s t : State} (h : takeInterrupt k s = .ok t) :
    ∃ target n mem, t = { s with
      sp := s.sp - 1 - 1 - 1
      p := { k.markB s.par.bFlagModel s.p with i := true }
      mem := mem
      draws := n
      pc := target } := by
  obtain ⟨s1, h1, h⟩ := bind_ok.mp h
  obtain ⟨s2, h2, h⟩ := bind_ok.mp h
  obtain ⟨s3, h3, h⟩ := bind_ok.mp h
  obtain ⟨⟨target, s4⟩, h4, h⟩ := bind_ok.mp h
  cases pure_ok.mp h
  obtain ⟨m1, rfl⟩ := push_frame h1
  obtain ⟨m2, rfl⟩ := push_frame h2
  obtain ⟨m3, rfl⟩ := push_frame h3
  obtain ⟨n, rfl⟩ := read16_frame h4
  exact ⟨target, n, m3, by simp only [State.setPc, State.setP, State.setMem, State.setSp, State.setDraws]⟩

theorem takeInterrupt_keeps {k : InterruptKind} {s t : State} (h : takeInterrupt k s = .ok t) : Keeps s t := by
  obtain ⟨s1, h1, h⟩ := bind_ok.mp h
  obtain ⟨s2, h2, h⟩ := bind_ok.mp h
  obtain ⟨s3, h3, h⟩ := bind_ok.mp h
  obtain ⟨⟨target, s4⟩, h4, h⟩ := bind_ok.mp h
  cases pure_ok.mp h
  have k1 := push_keeps h1
  have k2 := push_keeps h2
  have k3 := push_keeps h3
  have k4 := Keeps.of_frame (read16_frame h4)
  refine ⟨?_, fun w => ?_⟩
  · exact k4.par.trans (k3.par.trans (k2.par.trans k1.par))
  · exact k4.wf (k3.wf (k2.wf (k1.wf w)))

/-- All a return from interrupt does: SP three up, P from the first byte pulled, PC from the other two (R229). -/
theorem returnFromInterrupt_cases {s t : State} (h : returnFromInterrupt s = .ok t) :
    ∃ v target n, t = { s with
      sp := s.sp + 1 + 1 + 1
      p := Status.ofByte s.par.bFlagModel s.p v
      draws := n
      pc := target } := by
  obtain ⟨⟨v, s1⟩, h1, h⟩ := bind_ok.mp h
  obtain ⟨⟨lo, s2⟩, h2, h⟩ := bind_ok.mp h
  obtain ⟨⟨hi, s3⟩, h3, h⟩ := bind_ok.mp h
  cases pure_ok.mp h
  obtain ⟨n1, rfl⟩ := pull_frame h1
  obtain ⟨n2, rfl⟩ := pull_frame h2
  obtain ⟨n3, rfl⟩ := pull_frame h3
  exact ⟨v, wordOf hi lo, n3, by simp only [State.setPc, State.setP, State.setSp, State.setDraws]⟩

/-- All the reset event does: the registers and flags drawn, I set, no edge pending, PC from the vector (R281). -/
theorem resetEvent_cases {s t : State} (h : resetEvent s = .ok t) :
    ∃ target n, read16 Config.vecReset s.drawnAtReset = .ok (target, s.drawnAtReset.setDraws n) ∧
      t = (s.drawnAtReset.setDraws n).setPc target := by
  obtain ⟨⟨target, s1⟩, h1, h⟩ := bind_ok.mp h
  cases pure_ok.mp h
  obtain ⟨n, rfl⟩ := read16_frame h1
  exact ⟨target, n, h1, rfl⟩

end Sys2Proof.Machine
end

