-- ==== Sys2Proof/Laws/Operands.lean ====
section
/-! SUPPORT. What an operand form and each shape of instruction can do, said once. -/

namespace Sys2Proof.Machine

theorem effectiveAddress_frame {m : MemForm} {s t : State} {ea : Word} (h : effectiveAddress m s = .ok (ea, t)) :
    ∃ n, t = s.setDraws n := by
  cases m with
  | izx b => exact read16zp_frame h
  | izy b =>
    obtain ⟨⟨base, u⟩, h1, h⟩ := bind_ok.mp h
    cases pure_ok.mp h
    exact read16zp_frame h1
  | _ => cases h; exact ⟨_, rfl⟩

theorem memOperand_frame {m : MemForm} {s t : State} {v : Byte} (h : memOperand m s = .ok (v, t)) :
    ∃ n, t = s.setDraws n := by
  obtain ⟨⟨ea, u⟩, h1, h⟩ := bind_ok.mp h
  obtain ⟨n1, rfl⟩ := effectiveAddress_frame h1
  obtain ⟨n2, rfl⟩ := readByte_frame h
  exact ⟨n2, rfl⟩

/-- Reading an operand changes nothing but the count of free values. -/
theorem operand_frame {f : ReadForm} {s t : State} {v : Byte} (h : operand f s = .ok (v, t)) :
    ∃ n, t = s.setDraws n := by
  cases f with
  | imm b => cases h; exact ⟨_, rfl⟩
  | mem m => exact memOperand_frame h

theorem indirectTarget_frame {ptr : Word} {s t : State} {w : Word} (h : indirectTarget ptr s = .ok (w, t)) :
    ∃ n, t = s.setDraws n := by
  obtain ⟨⟨lo, s1⟩, h1, h⟩ := bind_ok.mp h
  obtain ⟨n1, rfl⟩ := readByte_frame h1
  dsimp only at h
  split at h
  · obtain ⟨⟨hi, s2⟩, h2, h⟩ := bind_ok.mp h
    cases pure_ok.mp h
    obtain ⟨n2, rfl⟩ := readByte_frame h2
    exact ⟨n2, rfl⟩
  · split at h
    · cases h
    all_goals
      obtain ⟨⟨hi, s2⟩, h2, h⟩ := bind_ok.mp h
      cases pure_ok.mp h
      obtain ⟨n2, rfl⟩ := readByte_frame h2
      exact ⟨n2, rfl⟩

/-! Where no device is declared, every access answers (R41, R50). -/

theorem State.isIo_of_noDevices {s : State} (h : s.par.ioRegions = []) (a : Word) : s.isIo a = false := by
  simp [State.isIo, h]

theorem readByte_total {s : State} (h : s.par.ioRegions = []) (a : Word) :
    ∃ v n, readByte a s = .ok (v, s.setDraws n) := by
  obtain ⟨⟨v, t⟩, hr⟩ := (readByte_answers a s).mpr (State.isIo_of_noDevices h a)
  obtain ⟨n, rfl⟩ := readByte_frame hr
  exact ⟨v, n, hr⟩

theorem read16zp_total {s : State} (h : s.par.ioRegions = []) (z : Byte) :
    ∃ w n, read16zp z s = .ok (w, s.setDraws n) := by
  obtain ⟨lo, n1, h1⟩ := readByte_total h (zeroPage z)
  obtain ⟨hi, n2, h2⟩ := readByte_total (s := s.setDraws n1) h (zeroPage (z + 1))
  exact ⟨wordOf hi lo, n2, bind_ok.mpr ⟨_, h1, bind_ok.mpr ⟨_, h2, rfl⟩⟩⟩

theorem effectiveAddress_total {s : State} (h : s.par.ioRegions = []) (m : MemForm) :
    ∃ ea n, effectiveAddress m s = .ok (ea, s.setDraws n) := by
  cases m with
  | izx b => exact read16zp_total h _
  | izy b =>
    obtain ⟨base, n, hb⟩ := read16zp_total h b
    exact ⟨_, n, bind_ok.mpr ⟨_, hb, rfl⟩⟩
  | _ => exact ⟨_, s.draws, rfl⟩

theorem operand_total {s : State} (h : s.par.ioRegions = []) (f : ReadForm) :
    ∃ v n, operand f s = .ok (v, s.setDraws n) := by
  cases f with
  | imm b => exact ⟨b, s.draws, rfl⟩
  | mem m =>
    obtain ⟨ea, n1, he⟩ := effectiveAddress_total h m
    obtain ⟨v, n2, hv⟩ := readByte_total (s := s.setDraws n1) h ea
    exact ⟨v, n2, bind_ok.mpr ⟨_, he, hv⟩⟩

/-! The shapes. -/

/-- All a reading instruction can do: read its operand, update, advance. -/
theorem runRead_next {update : Byte → State → State} {f : ReadForm} {s t : State} :
    runRead update f s = .next t ↔ ∃ m s1, operand f s = .ok (m, s1) ∧ t = (update m s1).advance f.length := by
  rw [runRead, outcome_next, bind_ok]
  constructor
  · rintro ⟨⟨m, s1⟩, h1, h⟩; exact ⟨m, s1, h1, (pure_ok.mp h).symm⟩
  · rintro ⟨m, s1, h1, rfl⟩; exact ⟨(m, s1), h1, rfl⟩

/-- All a storing instruction can do: compute its address, write there, advance. -/
theorem runStore_next {value : Byte} {m : MemForm} {s t : State} :
    runStore value m s = .next t ↔
      ∃ ea s1 s2, effectiveAddress m s = .ok (ea, s1) ∧ writeByte ea value s1 = .ok s2 ∧ t = s2.advance m.length := by
  rw [runStore, outcome_next, bind_ok]
  constructor
  · rintro ⟨⟨ea, s1⟩, h1, h⟩
    obtain ⟨s2, h2, h⟩ := bind_ok.mp h
    exact ⟨ea, s1, s2, h1, h2, (pure_ok.mp h).symm⟩
  · rintro ⟨ea, s1, s2, h1, h2, rfl⟩
    exact ⟨(ea, s1), h1, bind_ok.mpr ⟨s2, h2, rfl⟩⟩

/-- All a read-modify-write of memory can do: one read and one write of the same address, advance. -/
theorem runModifyMemory_next {compute : Byte → Status → Byte × Status} {m : MemForm} {s t : State} :
    runModifyMemory compute m s = .next t ↔
      ∃ ea s1 v s2 s3, effectiveAddress m s = .ok (ea, s1) ∧ readByte ea s1 = .ok (v, s2) ∧
        writeByte ea (compute v s2.p).1 (s2.setP (compute v s2.p).2) = .ok s3 ∧ t = s3.advance m.length := by
  rw [runModifyMemory, outcome_next, bind_ok]
  constructor
  · rintro ⟨⟨ea, s1⟩, h1, h⟩
    obtain ⟨⟨v, s2⟩, h2, h⟩ := bind_ok.mp h
    obtain ⟨s3, h3, h⟩ := bind_ok.mp h
    exact ⟨ea, s1, v, s2, s3, h1, h2, h3, (pure_ok.mp h).symm⟩
  · rintro ⟨ea, s1, v, s2, s3, h1, h2, h3, rfl⟩
    exact ⟨(ea, s1), h1, bind_ok.mpr ⟨(v, s2), h2, bind_ok.mpr ⟨s3, h3, rfl⟩⟩⟩

/-- All a push instruction can do. -/
theorem runPush_next {v : Byte} {s t : State} :
    runPush v s = .next t ↔ ∃ s1, push v s = .ok s1 ∧ t = s1.advance 1 := by
  rw [runPush, outcome_next, bind_ok]
  constructor
  · rintro ⟨s1, h1, h⟩; exact ⟨s1, h1, (pure_ok.mp h).symm⟩
  · rintro ⟨s1, h1, rfl⟩; exact ⟨s1, h1, rfl⟩

/-- All a pull instruction can do. -/
theorem runPull_next {update : Byte → State → State} {s t : State} :
    runPull update s = .next t ↔ ∃ m s1, pull s = .ok (m, s1) ∧ t = (update m s1).advance 1 := by
  rw [runPull, outcome_next, bind_ok]
  constructor
  · rintro ⟨⟨m, s1⟩, h1, h⟩; exact ⟨m, s1, h1, (pure_ok.mp h).symm⟩
  · rintro ⟨m, s1, h1, rfl⟩; exact ⟨(m, s1), h1, rfl⟩

@[simp] theorem runImplied_next (update : State → State) (s : State) :
    runImplied update s = .next ((update s).advance 1) := rfl

@[simp] theorem runBranch_next (taken : Bool) (b : Byte) (s : State) :
    runBranch taken b s = .next (s.setPc (if taken then branchTarget s.par.relOffset s.pc b else s.pc + 2)) := rfl

end Sys2Proof.Machine
end

