-- ==== Sys2Proof/Laws/Step.lean ====
section
/-! SUPPORT. What a fetch and a step can do, said once. -/

namespace Sys2Proof.Machine

/-- A fetch changes nothing but the count of free values. -/
theorem fetchInstr_frame {s t : State} {i : Instr} (h : fetchInstr s = .ok (i, t)) : ∃ n, t = s.setDraws n := by
  obtain ⟨⟨op, s1⟩, h1, h⟩ := bind_ok.mp h
  obtain ⟨n1, rfl⟩ := readByte_frame h1
  dsimp only at h
  split at h
  · cases pure_ok.mp h; exact ⟨n1, rfl⟩
  · obtain ⟨⟨b1, s2⟩, h2, h⟩ := bind_ok.mp h
    obtain ⟨n2, rfl⟩ := readByte_frame h2
    cases pure_ok.mp h; exact ⟨n2, rfl⟩
  · obtain ⟨⟨b1, s2⟩, h2, h⟩ := bind_ok.mp h
    obtain ⟨n2, rfl⟩ := readByte_frame h2
    obtain ⟨⟨b2, s3⟩, h3, h⟩ := bind_ok.mp h
    obtain ⟨n3, rfl⟩ := readByte_frame h3
    cases pure_ok.mp h; exact ⟨n3, rfl⟩
  · cases pure_ok.mp h; exact ⟨n1, rfl⟩

/-- All a step that answers a next state can have done: served an event, or fetched and executed an instruction. -/
theorem step_cases {s t : State} (h : step s = .next t) :
    (∃ e, pendingEvent (sampleInputs s) = some e ∧ serveEvent e (sampleInputs s) = .ok t) ∨
      (pendingEvent (sampleInputs s) = none ∧
        ∃ i n, fetchInstr (sampleInputs s) = .ok (i, (sampleInputs s).setDraws n) ∧
          exec i ((sampleInputs s).setDraws n) = .next t) := by
  unfold step at h
  cases he : pendingEvent (sampleInputs s) with
  | some e =>
    simp only [he] at h
    exact .inl ⟨e, rfl, outcome_next.mp h⟩
  | none =>
    simp only [he] at h
    cases hf : fetchInstr (sampleInputs s) with
    | error r => simp only [hf] at h; cases h
    | ok r =>
      obtain ⟨i, u⟩ := r
      simp only [hf] at h
      obtain ⟨n, rfl⟩ := fetchInstr_frame hf
      exact .inr ⟨rfl, i, n, rfl, h⟩

/-- Sampling the inputs changes nothing but the inputs (R250). -/
theorem sampleInputs_frame (s : State) :
    ∃ inputs reset irq nmi, sampleInputs s =
      { s with inputs := inputs, resetLine := reset, irq := irq, nmiPending := nmi } := by
  unfold sampleInputs
  split
  · exact ⟨s.inputs, s.resetLine, s.irq, s.nmiPending, rfl⟩
  · exact ⟨_, _, _, _, rfl⟩

/-- A machine whose inputs are quiet runs the instruction it fetches. -/
theorem step_of_fetch {s u : State} {i : Instr} (hq : pendingEvent (sampleInputs s) = none)
    (hf : fetchInstr (sampleInputs s) = .ok (i, u)) : step s = exec i u := by
  unfold step
  simp only [hq, hf]

end Sys2Proof.Machine
end

