-- ==== Sys2Proof/Laws/Launch.lean ====
section
/-! SUPPORT. What a launch makes (R283), and how a run goes on (R290). -/

namespace Sys2Proof.Machine

/-! Placing an image. -/

theorem Memory.read_place_other (image : Image) (m : Memory) (c : Nat) (h : ∀ p ∈ image, c ≠ p.1.toNat) :
    (Memory.place image m).read c = m.read c := by
  induction image generalizing m with
  | nil => rfl
  | cons q rest ih =>
    rw [Memory.place, ih _ fun p hp => h p (List.mem_cons_of_mem _ hp)]
    exact Memory.read_write_other _ _ _ _ (h q List.mem_cons_self)

/-- An image that gives each address one byte is what memory then holds. -/
theorem Memory.read_place_mem {image : Image} (m : Memory) (hn : (image.map Prod.fst).Nodup) {p : Word × Byte}
    (hp : p ∈ image) : (Memory.place image m).read p.1.toNat = p.2 := by
  induction image generalizing m with
  | nil => cases hp
  | cons q rest ih =>
    obtain ⟨hq, hn⟩ := List.nodup_cons.mp hn
    rcases List.mem_cons.mp hp with rfl | hp
    · rw [Memory.place, Memory.read_place_other _ _ _ fun r hr h =>
        hq (by rw [show p.1 = r.1 from BitVec.eq_of_toNat_eq h]; exact List.mem_map_of_mem hr)]
      exact Memory.read_write_same _ _ _
    · exact ih _ hn hp

theorem Memory.place_wf (image : Image) (m : Memory) (h : m.wf) : (Memory.place image m).wf := by
  induction image generalizing m with
  | nil => exact h
  | cons q rest ih => exact ih _ (Memory.write_wf _ _ _ h q.1.isLt)

/-! A launch. -/

/-- All a launch from reset does besides placing the image: the reset event (R281). -/
theorem launchState_fromReset {image : Image} {s t : State} (h : launchState .fromReset image s = .ok t) :
    ∃ target n, read16 Config.vecReset (s.setMem (Memory.place image s.mem)).drawnAtReset =
        .ok (target, (s.setMem (Memory.place image s.mem)).drawnAtReset.setDraws n) ∧
      t = ((s.setMem (Memory.place image s.mem)).drawnAtReset.setDraws n).setPc target :=
  resetEvent_cases h

theorem launchState_mem {l : Launch} {image : Image} {s t : State} (h : launchState l image s = .ok t) :
    t.mem = Memory.place image s.mem := by
  cases l with
  | fromReset => obtain ⟨_, _, -, rfl⟩ := launchState_fromReset h; rfl
  | fromEntry e => cases h; rfl

/-- A launch keeps the parameters and the canonical form of memory. -/
theorem launchState_keeps {l : Launch} {image : Image} {s t : State} (h : launchState l image s = .ok t) : Keeps s t := by
  refine ⟨?_, fun hw => launchState_mem h ▸ Memory.place_wf _ _ hw⟩
  cases l with
  | fromReset => obtain ⟨_, _, -, rfl⟩ := launchState_fromReset h; rfl
  | fromEntry e => cases h; rfl

/-- What the entry lists is so, whatever the state was. -/
theorem State.enteredAt_enter (e : Entry) (s : State) : (s.enter e).EnteredAt e := by
  refine ⟨rfl, ?_⟩
  refine ⟨?_, ?_, ?_, ?_, ?_, ?_, ?_, ?_, ?_, ?_, ?_⟩ <;>
    (intro v hv; simp only [State.enter, Option.mem_def.mp hv, Option.getD_some])

/-- A launch makes a launch state (R283), provided the image gives each address one byte and, from reset, has both bytes of
the vector, at addresses that are mapped. -/
theorem launchState_isLaunch {l : Launch} {image : Image} {s t : State} (hn : (image.map Prod.fst).Nodup)
    (hv : l = .fromReset → ∀ a ∈ [Config.vecReset, Config.vecReset + 1], a ∈ image.map Prod.fst ∧ s.kindAt a ≠ .unmapped)
    (h : launchState l image s = .ok t) : t.IsLaunch l image := by
  have hmem := launchState_mem h
  refine ⟨fun p hp => hmem ▸ Memory.read_place_mem _ hn hp, ?_⟩
  cases l with
  | fromEntry e => cases h; exact ⟨rfl, State.enteredAt_enter _ _⟩
  | fromReset =>
    obtain ⟨hlo, hklo⟩ := hv rfl Config.vecReset (by simp)
    obtain ⟨hhi, hkhi⟩ := hv rfl (Config.vecReset + 1) (by simp)
    obtain ⟨target, n, hr, rfl⟩ := launchState_fromReset h
    refine ⟨rfl, hlo, hhi, rfl, ?_⟩
    let u := (s.setMem (Memory.place image s.mem)).drawnAtReset
    obtain ⟨⟨lo, s1⟩, h1, hr⟩ := bind_ok.mp hr
    obtain ⟨rfl, rfl⟩ := readByte_mapped (s := u) hklo h1
    obtain ⟨⟨hi, s2⟩, h2, hr⟩ := bind_ok.mp hr
    obtain ⟨rfl, rfl⟩ := readByte_mapped (s := u) hkhi h2
    have ht := (Prod.mk.inj (pure_ok.mp hr)).1
    exact ht.symm

/-! A run. -/

/-- A run ends where the condition holds. -/
theorem runUntil_before {halt : HaltCondition} {fuel : Nat} {s : State} (h : halt.before s = true) :
    runUntil halt fuel s = .halted s := by
  unfold runUntil; rw [if_pos h]

/-- A run goes one step on, and ends after it or goes on from there. -/
theorem runUntil_next {halt : HaltCondition} {k : Nat} {s t : State} (hb : halt.before s = false) (h : step s = .next t) :
    runUntil halt (k + 1) s = if halt.after s t then .halted t else runUntil halt k t := by
  rw [runUntil, if_neg (by simp [hb])]; simp only [h]

/-- A step ends a program by the spec's convention exactly where it executes an instruction that leaves PC alone (R290). -/
theorem haltsAt_iff (s t : State) :
    haltsAt s t = true ↔ pendingEvent (sampleInputs s) = none ∧ t.pc = s.pc := by
  simp [haltsAt]

end Sys2Proof.Machine
end

