-- ==== Sys2Proof/Laws/PerInstr.lean ====
section
/-! SUPPORT. A statement for every instruction, one lemma a constructor: the encoding has as many bytes as the instruction's
operand form says (R70, R71). -/

namespace Sys2Proof.Laws.EncodedLength

/-- The encoding of the instruction has the length of its operand form; a reserved opcode, which has no form and no length
(R97), is written as its one byte. -/
def Statement (i : Instr) : Prop :=
  (encode i).length = match Machine.formOf i with
    | some f => Machine.formLength f
    | none => 1

theorem ldaImm (b : Byte) : Statement (.ldaImm b) := rfl
theorem ldaZp (b : Byte) : Statement (.ldaZp b) := rfl
theorem ldaZpx (b : Byte) : Statement (.ldaZpx b) := rfl
theorem ldaAbs (a : Word) : Statement (.ldaAbs a) := rfl
theorem ldaAbx (a : Word) : Statement (.ldaAbx a) := rfl
theorem ldaAby (a : Word) : Statement (.ldaAby a) := rfl
theorem ldaIzx (b : Byte) : Statement (.ldaIzx b) := rfl
theorem ldaIzy (b : Byte) : Statement (.ldaIzy b) := rfl
theorem ldxImm (b : Byte) : Statement (.ldxImm b) := rfl
theorem ldxZp (b : Byte) : Statement (.ldxZp b) := rfl
theorem ldxZpy (b : Byte) : Statement (.ldxZpy b) := rfl
theorem ldxAbs (a : Word) : Statement (.ldxAbs a) := rfl
theorem ldxAby (a : Word) : Statement (.ldxAby a) := rfl
theorem ldyImm (b : Byte) : Statement (.ldyImm b) := rfl
theorem ldyZp (b : Byte) : Statement (.ldyZp b) := rfl
theorem ldyZpx (b : Byte) : Statement (.ldyZpx b) := rfl
theorem ldyAbs (a : Word) : Statement (.ldyAbs a) := rfl
theorem ldyAbx (a : Word) : Statement (.ldyAbx a) := rfl
theorem staZp (b : Byte) : Statement (.staZp b) := rfl
theorem staZpx (b : Byte) : Statement (.staZpx b) := rfl
theorem staAbs (a : Word) : Statement (.staAbs a) := rfl
theorem staAbx (a : Word) : Statement (.staAbx a) := rfl
theorem staAby (a : Word) : Statement (.staAby a) := rfl
theorem staIzx (b : Byte) : Statement (.staIzx b) := rfl
theorem staIzy (b : Byte) : Statement (.staIzy b) := rfl
theorem stxZp (b : Byte) : Statement (.stxZp b) := rfl
theorem stxZpy (b : Byte) : Statement (.stxZpy b) := rfl
theorem stxAbs (a : Word) : Statement (.stxAbs a) := rfl
theorem styZp (b : Byte) : Statement (.styZp b) := rfl
theorem styZpx (b : Byte) : Statement (.styZpx b) := rfl
theorem styAbs (a : Word) : Statement (.styAbs a) := rfl
theorem tax : Statement .tax := rfl
theorem tay : Statement .tay := rfl
theorem tsx : Statement .tsx := rfl
theorem txa : Statement .txa := rfl
theorem txs : Statement .txs := rfl
theorem tya : Statement .tya := rfl
theorem pha : Statement .pha := rfl
theorem php : Statement .php := rfl
theorem pla : Statement .pla := rfl
theorem plp : Statement .plp := rfl
theorem adcImm (b : Byte) : Statement (.adcImm b) := rfl
theorem adcZp (b : Byte) : Statement (.adcZp b) := rfl
theorem adcZpx (b : Byte) : Statement (.adcZpx b) := rfl
theorem adcAbs (a : Word) : Statement (.adcAbs a) := rfl
theorem adcAbx (a : Word) : Statement (.adcAbx a) := rfl
theorem adcAby (a : Word) : Statement (.adcAby a) := rfl
theorem adcIzx (b : Byte) : Statement (.adcIzx b) := rfl
theorem adcIzy (b : Byte) : Statement (.adcIzy b) := rfl
theorem sbcImm (b : Byte) : Statement (.sbcImm b) := rfl
theorem sbcZp (b : Byte) : Statement (.sbcZp b) := rfl
theorem sbcZpx (b : Byte) : Statement (.sbcZpx b) := rfl
theorem sbcAbs (a : Word) : Statement (.sbcAbs a) := rfl
theorem sbcAbx (a : Word) : Statement (.sbcAbx a) := rfl
theorem sbcAby (a : Word) : Statement (.sbcAby a) := rfl
theorem sbcIzx (b : Byte) : Statement (.sbcIzx b) := rfl
theorem sbcIzy (b : Byte) : Statement (.sbcIzy b) := rfl
theorem cmpImm (b : Byte) : Statement (.cmpImm b) := rfl
theorem cmpZp (b : Byte) : Statement (.cmpZp b) := rfl
theorem cmpZpx (b : Byte) : Statement (.cmpZpx b) := rfl
theorem cmpAbs (a : Word) : Statement (.cmpAbs a) := rfl
theorem cmpAbx (a : Word) : Statement (.cmpAbx a) := rfl
theorem cmpAby (a : Word) : Statement (.cmpAby a) := rfl
theorem cmpIzx (b : Byte) : Statement (.cmpIzx b) := rfl
theorem cmpIzy (b : Byte) : Statement (.cmpIzy b) := rfl
theorem cpxImm (b : Byte) : Statement (.cpxImm b) := rfl
theorem cpxZp (b : Byte) : Statement (.cpxZp b) := rfl
theorem cpxAbs (a : Word) : Statement (.cpxAbs a) := rfl
theorem cpyImm (b : Byte) : Statement (.cpyImm b) := rfl
theorem cpyZp (b : Byte) : Statement (.cpyZp b) := rfl
theorem cpyAbs (a : Word) : Statement (.cpyAbs a) := rfl
theorem andImm (b : Byte) : Statement (.andImm b) := rfl
theorem andZp (b : Byte) : Statement (.andZp b) := rfl
theorem andZpx (b : Byte) : Statement (.andZpx b) := rfl
theorem andAbs (a : Word) : Statement (.andAbs a) := rfl
theorem andAbx (a : Word) : Statement (.andAbx a) := rfl
theorem andAby (a : Word) : Statement (.andAby a) := rfl
theorem andIzx (b : Byte) : Statement (.andIzx b) := rfl
theorem andIzy (b : Byte) : Statement (.andIzy b) := rfl
theorem eorImm (b : Byte) : Statement (.eorImm b) := rfl
theorem eorZp (b : Byte) : Statement (.eorZp b) := rfl
theorem eorZpx (b : Byte) : Statement (.eorZpx b) := rfl
theorem eorAbs (a : Word) : Statement (.eorAbs a) := rfl
theorem eorAbx (a : Word) : Statement (.eorAbx a) := rfl
theorem eorAby (a : Word) : Statement (.eorAby a) := rfl
theorem eorIzx (b : Byte) : Statement (.eorIzx b) := rfl
theorem eorIzy (b : Byte) : Statement (.eorIzy b) := rfl
theorem oraImm (b : Byte) : Statement (.oraImm b) := rfl
theorem oraZp (b : Byte) : Statement (.oraZp b) := rfl
theorem oraZpx (b : Byte) : Statement (.oraZpx b) := rfl
theorem oraAbs (a : Word) : Statement (.oraAbs a) := rfl
theorem oraAbx (a : Word) : Statement (.oraAbx a) := rfl
theorem oraAby (a : Word) : Statement (.oraAby a) := rfl
theorem oraIzx (b : Byte) : Statement (.oraIzx b) := rfl
theorem oraIzy (b : Byte) : Statement (.oraIzy b) := rfl
theorem bitZp (b : Byte) : Statement (.bitZp b) := rfl
theorem bitAbs (a : Word) : Statement (.bitAbs a) := rfl
theorem aslAcc : Statement .aslAcc := rfl
theorem aslZp (b : Byte) : Statement (.aslZp b) := rfl
theorem aslZpx (b : Byte) : Statement (.aslZpx b) := rfl
theorem aslAbs (a : Word) : Statement (.aslAbs a) := rfl
theorem aslAbx (a : Word) : Statement (.aslAbx a) := rfl
theorem lsrAcc : Statement .lsrAcc := rfl
theorem lsrZp (b : Byte) : Statement (.lsrZp b) := rfl
theorem lsrZpx (b : Byte) : Statement (.lsrZpx b) := rfl
theorem lsrAbs (a : Word) : Statement (.lsrAbs a) := rfl
theorem lsrAbx (a : Word) : Statement (.lsrAbx a) := rfl
theorem rolAcc : Statement .rolAcc := rfl
theorem rolZp (b : Byte) : Statement (.rolZp b) := rfl
theorem rolZpx (b : Byte) : Statement (.rolZpx b) := rfl
theorem rolAbs (a : Word) : Statement (.rolAbs a) := rfl
theorem rolAbx (a : Word) : Statement (.rolAbx a) := rfl
theorem rorAcc : Statement .rorAcc := rfl
theorem rorZp (b : Byte) : Statement (.rorZp b) := rfl
theorem rorZpx (b : Byte) : Statement (.rorZpx b) := rfl
theorem rorAbs (a : Word) : Statement (.rorAbs a) := rfl
theorem rorAbx (a : Word) : Statement (.rorAbx a) := rfl
theorem incZp (b : Byte) : Statement (.incZp b) := rfl
theorem incZpx (b : Byte) : Statement (.incZpx b) := rfl
theorem incAbs (a : Word) : Statement (.incAbs a) := rfl
theorem incAbx (a : Word) : Statement (.incAbx a) := rfl
theorem inx : Statement .inx := rfl
theorem iny : Statement .iny := rfl
theorem decZp (b : Byte) : Statement (.decZp b) := rfl
theorem decZpx (b : Byte) : Statement (.decZpx b) := rfl
theorem decAbs (a : Word) : Statement (.decAbs a) := rfl
theorem decAbx (a : Word) : Statement (.decAbx a) := rfl
theorem dex : Statement .dex := rfl
theorem dey : Statement .dey := rfl
theorem bcc (b : Byte) : Statement (.bcc b) := rfl
theorem bcs (b : Byte) : Statement (.bcs b) := rfl
theorem beq (b : Byte) : Statement (.beq b) := rfl
theorem bmi (b : Byte) : Statement (.bmi b) := rfl
theorem bne (b : Byte) : Statement (.bne b) := rfl
theorem bpl (b : Byte) : Statement (.bpl b) := rfl
theorem bvc (b : Byte) : Statement (.bvc b) := rfl
theorem bvs (b : Byte) : Statement (.bvs b) := rfl
theorem jmpAbs (a : Word) : Statement (.jmpAbs a) := rfl
theorem jmpInd (a : Word) : Statement (.jmpInd a) := rfl
theorem jsr (a : Word) : Statement (.jsr a) := rfl
theorem rts : Statement .rts := rfl
theorem clc : Statement .clc := rfl
theorem cld : Statement .cld := rfl
theorem cli : Statement .cli := rfl
theorem clv : Statement .clv := rfl
theorem sec : Statement .sec := rfl
theorem sed : Statement .sed := rfl
theorem sei : Statement .sei := rfl
theorem nop : Statement .nop := rfl
theorem brk : Statement .brk := rfl
theorem rti : Statement .rti := rfl
theorem reserved (op : Byte) : Statement (.reserved op) := rfl

end Sys2Proof.Laws.EncodedLength
end

