-- ==== Sys2Proof/Tests/Slice0.lean ====
section
/-! SUPPORT. The model's own tests, each a named theorem: ill-formed terms refused, words written out from the spec's opcode
tables, single steps from spec/95_test_vectors.md, and for every statement of the provers that has hypotheses a state or operands
that meet them (`witness_...`, under the statement's name). -/

namespace Sys2Proof.Tests

open Sys2Proof.Machine

/-! Helpers. -/

/-- The state the vectors of 95_test_vectors.md start from: SP = FF, all flags 0, PC = 0200. -/
def launch : State :=
  { State.reset with sp := 0xFF, pc := 0x0200, p := { Status.atReset with i := false } }

/-- A state with bytes in memory. -/
def poke (cells : List (Word × Byte)) (s : State) : State :=
  cells.foldl (fun s c => s.setMem (s.mem.write c.1.toNat c.2)) s

/-- The next state, where there is one. -/
def after (o : Host.Outcome State Fault Refusal) : Option State :=
  match o with
  | .next t => some t
  | .fault _ => none
  | .refused _ => none

/-- The model's stop, where there is one. -/
def stop (o : Host.Outcome State Fault Refusal) : Option Refusal :=
  match o with
  | .next _ => none
  | .fault _ => none
  | .refused r => some r

/-- One step of a machine with these bytes at PC and these cells in memory. -/
def ran (bytes : List Byte) (cells : List (Word × Byte)) (s : State) : Option State :=
  after (step (placeAtPc bytes (poke cells s)))

/-- What the decoder makes of table words, each with its number of bits. -/
def words (ws : List (Nat × Nat)) : List Instr := ws.filterMap (fun w => decodeTableWord w.1 w.2)

/-! WellFormed: an ill-formed term for each check. -/

theorem test_wf_refuses_assigned_opcode_as_reserved : Instr.wf true (.reserved 0xA9) = false := by decide
theorem test_wf_admits_reserved : Instr.wf true (.reserved 0x02) = true := by decide
theorem test_wf_refuses_ror_opcode_as_reserved : Instr.wf true (.reserved 0x6A) = false := by decide
theorem test_wf_admits_ror_opcode_as_reserved_without_ror : Instr.wf false (.reserved 0x6A) = true := by decide
theorem test_wf_refuses_ror_without_ror :
    [Instr.rorAcc, .rorZp 0, .rorZpx 0, .rorAbs 0, .rorAbx 0].map (Instr.wf false) =
      [false, false, false, false, false] := by decide

/-! Decode. -/

/-- 40_load_store.md: the opcode columns of its tables, with the operand bytes 9C, and F6 31. -/
theorem test_decode_load_store : words
    [(16, 0x9CA9), (16, 0x9CA5), (16, 0x9CB5), (24, 0x31F6AD), (24, 0x31F6BD), (24, 0x31F6B9), (16, 0x9CA1),
     (16, 0x9CB1), (16, 0x9CA2), (16, 0x9CA6), (16, 0x9CB6), (24, 0x31F6AE), (24, 0x31F6BE), (16, 0x9CA0),
     (16, 0x9CA4), (16, 0x9CB4), (24, 0x31F6AC), (24, 0x31F6BC), (16, 0x9C85), (16, 0x9C95), (24, 0x31F68D),
     (24, 0x31F69D), (24, 0x31F699), (16, 0x9C81), (16, 0x9C91), (16, 0x9C86), (16, 0x9C96), (24, 0x31F68E),
     (16, 0x9C84), (16, 0x9C94), (24, 0x31F68C)] =
    [.ldaImm 0x9C, .ldaZp 0x9C, .ldaZpx 0x9C, .ldaAbs 0x31F6, .ldaAbx 0x31F6, .ldaAby 0x31F6, .ldaIzx 0x9C,
     .ldaIzy 0x9C, .ldxImm 0x9C, .ldxZp 0x9C, .ldxZpy 0x9C, .ldxAbs 0x31F6, .ldxAby 0x31F6, .ldyImm 0x9C,
     .ldyZp 0x9C, .ldyZpx 0x9C, .ldyAbs 0x31F6, .ldyAbx 0x31F6, .staZp 0x9C, .staZpx 0x9C, .staAbs 0x31F6,
     .staAbx 0x31F6, .staAby 0x31F6, .staIzx 0x9C, .staIzy 0x9C, .stxZp 0x9C, .stxZpy 0x9C, .stxAbs 0x31F6,
     .styZp 0x9C, .styZpx 0x9C, .styAbs 0x31F6] := by decide

/-- 41_transfer.md: the opcode columns of its tables, with the operand bytes 9C, and F6 31. -/
theorem test_decode_transfer : words
    [(8, 0xAA), (8, 0xA8), (8, 0xBA), (8, 0x8A), (8, 0x9A), (8, 0x98)] =
    [.tax, .tay, .tsx, .txa, .txs, .tya] := by decide

/-- 42_stack.md: the opcode columns of its tables, with the operand bytes 9C, and F6 31. -/
theorem test_decode_stack : words
    [(8, 0x48), (8, 0x08), (8, 0x68), (8, 0x28)] =
    [.pha, .php, .pla, .plp] := by decide

/-- 43_arithmetic.md: the opcode columns of its tables, with the operand bytes 9C, and F6 31. -/
theorem test_decode_arithmetic : words
    [(16, 0x9C69), (16, 0x9C65), (16, 0x9C75), (24, 0x31F66D), (24, 0x31F67D), (24, 0x31F679), (16, 0x9C61),
     (16, 0x9C71), (16, 0x9CE9), (16, 0x9CE5), (16, 0x9CF5), (24, 0x31F6ED), (24, 0x31F6FD), (24, 0x31F6F9),
     (16, 0x9CE1), (16, 0x9CF1), (16, 0x9CC9), (16, 0x9CC5), (16, 0x9CD5), (24, 0x31F6CD), (24, 0x31F6DD),
     (24, 0x31F6D9), (16, 0x9CC1), (16, 0x9CD1), (16, 0x9CE0), (16, 0x9CE4), (24, 0x31F6EC), (16, 0x9CC0),
     (16, 0x9CC4), (24, 0x31F6CC)] =
    [.adcImm 0x9C, .adcZp 0x9C, .adcZpx 0x9C, .adcAbs 0x31F6, .adcAbx 0x31F6, .adcAby 0x31F6, .adcIzx 0x9C,
     .adcIzy 0x9C, .sbcImm 0x9C, .sbcZp 0x9C, .sbcZpx 0x9C, .sbcAbs 0x31F6, .sbcAbx 0x31F6, .sbcAby 0x31F6,
     .sbcIzx 0x9C, .sbcIzy 0x9C, .cmpImm 0x9C, .cmpZp 0x9C, .cmpZpx 0x9C, .cmpAbs 0x31F6, .cmpAbx 0x31F6,
     .cmpAby 0x31F6, .cmpIzx 0x9C, .cmpIzy 0x9C, .cpxImm 0x9C, .cpxZp 0x9C, .cpxAbs 0x31F6, .cpyImm 0x9C,
     .cpyZp 0x9C, .cpyAbs 0x31F6] := by decide

/-- 44_logic.md: the opcode columns of its tables, with the operand bytes 9C, and F6 31. -/
theorem test_decode_logic : words
    [(16, 0x9C29), (16, 0x9C25), (16, 0x9C35), (24, 0x31F62D), (24, 0x31F63D), (24, 0x31F639), (16, 0x9C21),
     (16, 0x9C31), (16, 0x9C49), (16, 0x9C45), (16, 0x9C55), (24, 0x31F64D), (24, 0x31F65D), (24, 0x31F659),
     (16, 0x9C41), (16, 0x9C51), (16, 0x9C09), (16, 0x9C05), (16, 0x9C15), (24, 0x31F60D), (24, 0x31F61D),
     (24, 0x31F619), (16, 0x9C01), (16, 0x9C11), (16, 0x9C24), (24, 0x31F62C)] =
    [.andImm 0x9C, .andZp 0x9C, .andZpx 0x9C, .andAbs 0x31F6, .andAbx 0x31F6, .andAby 0x31F6, .andIzx 0x9C,
     .andIzy 0x9C, .eorImm 0x9C, .eorZp 0x9C, .eorZpx 0x9C, .eorAbs 0x31F6, .eorAbx 0x31F6, .eorAby 0x31F6,
     .eorIzx 0x9C, .eorIzy 0x9C, .oraImm 0x9C, .oraZp 0x9C, .oraZpx 0x9C, .oraAbs 0x31F6, .oraAbx 0x31F6,
     .oraAby 0x31F6, .oraIzx 0x9C, .oraIzy 0x9C, .bitZp 0x9C, .bitAbs 0x31F6] := by decide

/-- 45_shift_rotate.md: the opcode columns of its tables, with the operand bytes 9C, and F6 31. -/
theorem test_decode_shift : words
    [(8, 0x0A), (16, 0x9C06), (16, 0x9C16), (24, 0x31F60E), (24, 0x31F61E), (8, 0x4A), (16, 0x9C46), (16, 0x9C56),
     (24, 0x31F64E), (24, 0x31F65E), (8, 0x2A), (16, 0x9C26), (16, 0x9C36), (24, 0x31F62E), (24, 0x31F63E),
     (8, 0x6A), (16, 0x9C66), (16, 0x9C76), (24, 0x31F66E), (24, 0x31F67E)] =
    [.aslAcc, .aslZp 0x9C, .aslZpx 0x9C, .aslAbs 0x31F6, .aslAbx 0x31F6, .lsrAcc, .lsrZp 0x9C, .lsrZpx 0x9C,
     .lsrAbs 0x31F6, .lsrAbx 0x31F6, .rolAcc, .rolZp 0x9C, .rolZpx 0x9C, .rolAbs 0x31F6, .rolAbx 0x31F6, .rorAcc,
     .rorZp 0x9C, .rorZpx 0x9C, .rorAbs 0x31F6, .rorAbx 0x31F6] := by decide

/-- 46_inc_dec.md: the opcode columns of its tables, with the operand bytes 9C, and F6 31. -/
theorem test_decode_inc_dec : words
    [(16, 0x9CE6), (16, 0x9CF6), (24, 0x31F6EE), (24, 0x31F6FE), (8, 0xE8), (8, 0xC8), (16, 0x9CC6), (16, 0x9CD6),
     (24, 0x31F6CE), (24, 0x31F6DE), (8, 0xCA), (8, 0x88)] =
    [.incZp 0x9C, .incZpx 0x9C, .incAbs 0x31F6, .incAbx 0x31F6, .inx, .iny, .decZp 0x9C, .decZpx 0x9C,
     .decAbs 0x31F6, .decAbx 0x31F6, .dex, .dey] := by decide

/-- 47_branch.md: the opcode columns of its tables, with the operand bytes 9C, and F6 31. -/
theorem test_decode_branch : words
    [(16, 0x9C90), (16, 0x9CB0), (16, 0x9CF0), (16, 0x9C30), (16, 0x9CD0), (16, 0x9C10), (16, 0x9C50), (16, 0x9C70)] =
    [.bcc 0x9C, .bcs 0x9C, .beq 0x9C, .bmi 0x9C, .bne 0x9C, .bpl 0x9C, .bvc 0x9C, .bvs 0x9C] := by decide

/-- 48_jump_subroutine.md: the opcode columns of its tables, with the operand bytes 9C, and F6 31. -/
theorem test_decode_jump : words
    [(24, 0x31F64C), (24, 0x31F66C), (24, 0x31F620), (8, 0x60)] =
    [.jmpAbs 0x31F6, .jmpInd 0x31F6, .jsr 0x31F6, .rts] := by decide

/-- 49_flag_system.md: the opcode columns of its tables, with the operand bytes 9C, and F6 31. -/
theorem test_decode_flag_system : words
    [(8, 0x18), (8, 0xD8), (8, 0x58), (8, 0xB8), (8, 0x38), (8, 0xF8), (8, 0x78), (8, 0xEA), (8, 0x00), (8, 0x40)] =
    [.clc, .cld, .cli, .clv, .sec, .sed, .sei, .nop, .brk, .rti] := by decide

/-- 30_encoding.md R95, R97: how many of the 256 opcodes have each form, and how many are reserved. -/
theorem test_form_counts :
    [some Form.imp, some .acc, some .imm, some .zp, some .zpx, some .zpy, some .abs, some .abx, some .aby, some .ind,
      some .izx, some .izy, some .rel, none].map
        (fun f => (words ((List.range 256).map (fun n => (8, n)))).countP (fun i => formOf i == f)) =
      [25, 4, 11, 21, 16, 2, 23, 15, 9, 1, 8, 8, 8, 105] := by decide +kernel

/-- The reserved opcodes are those of R97. -/
theorem test_reserved_opcodes :
    ((List.range 256).filter (fun n => (cellOf true (BitVec.ofNat 8 n) matches .future))).map (BitVec.ofNat 8) =
      futureExpansion := by decide +kernel

theorem test_decode_stops_on_missing_bytes :
    decode true [] = .error .noBytes ∧ decode true [0xA9] = .error (.truncated 0xA9) ∧
      decode true [0xAD, 0xF6] = .error (.truncated 0xAD) := ⟨rfl, rfl, rfl⟩

theorem test_decode_without_ror : decode false [0x6A] = .ok (.reserved 0x6A, []) := rfl

theorem test_encode_puts_the_low_byte_first : encode (.ldaAbs 0x31F6) = [0xAD, 0xF6, 0x31] := by decide

/-- 30_encoding.md R100, R101, R102. -/
theorem test_assembler_text : assemblerText (.ldaIzx 0x3E) = "LDA ($3E,X)".toList := by decide
theorem test_assembler_prefers_zero_page : zeroPageTwin (.ldaAbs 0x00F4) = some (.ldaZp 0xF4) := by decide
theorem test_assembler_branch_reach :
    displacementTo 0x0600 0x0681 = some 0x7F ∧ displacementTo 0x0600 0x0682 = none := by decide

/-! Single steps (95_test_vectors.md section 2). -/

theorem test_lda_imm_zero :
    (ran [0xA9, 0x00] []
      { launch with a := 0x55, p := { launch.p with n := true } }).map
      (fun t => (t.a, t.p.n, t.p.z)) =
      some (0x00, false, true) := by decide

theorem test_lda_zpx_wraps :
    (ran [0xB5, 0xFF] [(0x0001, 0x42), (0x0101, 0x99)]
      { launch with x := 0x02 }).map
      (fun t => (t.a, t.p.n, t.p.z)) =
      some (0x42, false, false) := by decide

theorem test_lda_aby_crosses_page :
    (ran [0xB9, 0xF6, 0x31] [(0x3205, 0x22)] { launch with y := 0x0F }).map (fun t => (t.a, t.p.n, t.p.z)) =
      some (0x22, false, false) := by decide

theorem test_lda_abx_wraps :
    (ran [0xBD, 0xFF, 0xFF] [(0x0001, 0x33)] { launch with x := 0x02 }).map (fun t => (t.a, t.p.n, t.p.z)) =
      some (0x33, false, false) := by decide

theorem test_lda_izx_pointer_wraps :
    (ran [0xA1, 0xFA] [(0x00FF, 0x34), (0x0000, 0x12), (0x0100, 0x99), (0x1234, 0x77)]
      { launch with x := 0x05 }).map
      (fun t => (t.a, t.p.n, t.p.z)) =
      some (0x77, false, false) := by decide

theorem test_lda_izy_pointer_wraps :
    (ran [0xB1, 0xFF] [(0x00FF, 0x00), (0x0000, 0x40), (0x0100, 0x99), (0x4003, 0x0C)]
      { launch with y := 0x03 }).map
      (fun t => (t.a, t.p.n, t.p.z)) =
      some (0x0C, false, false) := by decide

theorem test_ldx_zpy_wraps :
    (ran [0xB6, 0x10] [(0x000F, 0x01)] { launch with y := 0xFF }).map (fun t => (t.x, t.p.n, t.p.z)) =
      some (0x01, false, false) := by decide

theorem test_ldx_aby :
    (ran [0xBE, 0x00, 0x03] [(0x0310, 0x00)]
      { launch with y := 0x10, x := 0x09 }).map
      (fun t => (t.x, t.p.n, t.p.z)) =
      some (0x00, false, true) := by decide

theorem test_ldy_zpx :
    (ran [0xB4, 0x10] [(0x0014, 0x80)] { launch with x := 0x04 }).map (fun t => (t.y, t.p.n, t.p.z)) =
      some (0x80, true, false) := by decide

theorem test_sta_zpx_wraps :
    (ran [0x95, 0xF0] []
      { launch with a := 0xAB, x := 0x20 }).map
      (fun t => (t.mem.read 0x0010, t.mem.read 0x0110)) =
      some (0xAB, 0x00) := by decide

theorem test_sta_aby_wraps :
    (ran [0x99, 0xFF, 0xFF] [] { launch with a := 0x34, y := 0x01 }).map (fun t => t.mem.read 0x0000) =
      some 0x34 := by decide

theorem test_sta_izx :
    (ran [0x81, 0x20] [(0x0024, 0x00), (0x0025, 0x03)]
      { launch with a := 0x56, x := 0x04 }).map
      (fun t => t.mem.read 0x0300) =
      some 0x56 := by decide

theorem test_sta_izy :
    (ran [0x91, 0x20] [(0x0020, 0xF8), (0x0021, 0x02)]
      { launch with a := 0x78, y := 0x10 }).map
      (fun t => t.mem.read 0x0308) =
      some 0x78 := by decide

theorem test_stx_zpy_wraps :
    (ran [0x96, 0xFF] []
      { launch with x := 0x11, y := 0x02 }).map
      (fun t => (t.mem.read 0x0001, t.mem.read 0x0101)) =
      some (0x11, 0x00) := by decide

theorem test_sty_zpx_wraps :
    (ran [0x94, 0xFF] []
      { launch with y := 0x7F, x := 0x01 }).map
      (fun t => (t.mem.read 0x0000, t.mem.read 0x0100)) =
      some (0x7F, 0x00) := by decide

theorem test_tax :
    (ran [0xAA] [] { launch with a := 0x80, x := 0x01 }).map (fun t => (t.x, t.p.n, t.p.z)) =
      some (0x80, true, false) := by decide

theorem test_tay :
    (ran [0xA8] [] { launch with a := 0x7F }).map (fun t => (t.y, t.p.n, t.p.z)) =
      some (0x7F, false, false) := by decide

theorem test_tsx :
    (ran [0xBA] [] { launch with sp := 0xFD, x := 0x00 }).map (fun t => (t.x, t.p.n, t.p.z)) =
      some (0xFD, true, false) := by decide

theorem test_txa :
    (ran [0x8A] [] { launch with x := 0xFF, a := 0x00 }).map (fun t => (t.a, t.p.n, t.p.z)) =
      some (0xFF, true, false) := by decide

theorem test_txs_keeps_flags :
    (ran [0x9A] []
      { launch with x := 0x00, p := { launch.p with n := true } }).map
      (fun t => (t.sp, t.p.n, t.p.z)) =
      some (0x00, true, false) := by decide

theorem test_tya :
    (ran [0x98] [] { launch with y := 0x00, a := 0x44 }).map (fun t => (t.a, t.p.n, t.p.z)) =
      some (0x00, false, true) := by decide

theorem test_pha_wraps :
    (ran [0x48] [] { launch with a := 0x99, sp := 0x00 }).map (fun t => (t.sp, t.mem.read 0x0100)) =
      some (0xFF, 0x99) := by decide

theorem test_php :
    (ran [0x08] []
      { launch with p := { launch.p with b := true, d := true, i := true, v := true, z := true } }).map
      (fun t => (t.sp, t.mem.read 0x01FF)) =
      some (0xFE, 0x7E) := by decide

theorem test_pla_wraps :
    (ran [0x68] [(0x0100, 0x42)] launch).map (fun t => (t.a, t.sp, t.p.n, t.p.z)) =
      some (0x42, 0x00, false, false) := by decide

theorem test_plp :
    (ran [0x28] [(0x01FF, 0xC3)] { launch with sp := 0xFE }).map (fun t => (t.sp, t.p)) =
      some (0xFF, ⟨true, true, false, false, false, true, true⟩) := by decide

theorem test_adc_overflows_and_carries :
    (ran [0x69, 0xD0] [] { launch with a := 0x90 }).map (fun t => (t.a, t.p.n, t.p.v, t.p.z, t.p.c)) =
      some (0x60, false, true, false, true) := by decide

theorem test_adc_decimal :
    (ran [0x69, 0x46] []
      { launch with a := 0x58, p := { launch.p with c := true, d := true } }).map
      (fun t => (t.a, t.p.n, t.p.v, t.p.z, t.p.c)) =
      some (0x05, true, true, false, true) := by decide

theorem test_sbc_overflows :
    (ran [0xE9, 0xB0] []
      { launch with a := 0x50, p := { launch.p with c := true } }).map
      (fun t => (t.a, t.p.n, t.p.v, t.p.z, t.p.c)) =
      some (0xA0, true, true, false, false) := by decide

theorem test_sbc_decimal_borrows :
    (ran [0xE9, 0x01] []
      { launch with a := 0x00, p := { launch.p with c := true, d := true } }).map
      (fun t => (t.a, t.p.n, t.p.v, t.p.z, t.p.c)) =
      some (0x99, true, false, false, false) := by decide

theorem test_cmp :
    (ran [0xC9, 0x41] [] { launch with a := 0x40 }).map (fun t => (t.p.n, t.p.z, t.p.c)) =
      some (true, false, false) := by decide

theorem test_cpx :
    (ran [0xE0, 0xFF] [] { launch with x := 0x00 }).map (fun t => (t.p.n, t.p.z, t.p.c)) =
      some (false, false, false) := by decide

theorem test_cpy :
    (ran [0xC0, 0x00] [] { launch with y := 0x80 }).map (fun t => (t.p.n, t.p.z, t.p.c)) =
      some (true, false, true) := by decide

theorem test_and_keeps_carry :
    (ran [0x29, 0x3C] []
      { launch with a := 0x5A, p := { launch.p with c := true, v := true } }).map
      (fun t => (t.a, t.p.n, t.p.z, t.p.c)) =
      some (0x18, false, false, true) := by decide

theorem test_eor :
    (ran [0x49, 0xFF] [] { launch with a := 0x55 }).map (fun t => (t.a, t.p.n, t.p.z)) =
      some (0xAA, true, false) := by decide

theorem test_ora :
    (ran [0x09, 0x01] [] { launch with a := 0x10 }).map (fun t => (t.a, t.p.n, t.p.z)) =
      some (0x11, false, false) := by decide

theorem test_bit_zp :
    (ran [0x24, 0x10] [(0x0010, 0x3F)]
      { launch with a := 0x01, p := { launch.p with n := true, v := true } }).map
      (fun t => (t.p.n, t.p.v, t.p.z)) =
      some (false, false, false) := by decide

theorem test_bit_abs :
    (ran [0x2C, 0x00, 0x03] [(0x0300, 0x40)] { launch with a := 0x40 }).map (fun t => (t.p.n, t.p.v, t.p.z)) =
      some (false, true, false) := by decide

theorem test_asl_acc :
    (ran [0x0A] [] { launch with a := 0x81 }).map (fun t => (t.a, t.p.n, t.p.z, t.p.c)) =
      some (0x02, false, false, true) := by decide

theorem test_lsr_abs :
    (ran [0x4E, 0x00, 0x03] [(0x0300, 0x02)] launch).map (fun t => (t.mem.read 0x0300, t.p.n, t.p.z, t.p.c)) =
      some (0x01, false, false, false) := by decide

theorem test_rol_acc :
    (ran [0x2A] []
      { launch with a := 0x80, p := { launch.p with c := true } }).map
      (fun t => (t.a, t.p.n, t.p.z, t.p.c)) =
      some (0x01, false, false, true) := by decide

theorem test_ror_acc :
    (ran [0x6A] []
      { launch with a := 0x01, p := { launch.p with c := true } }).map
      (fun t => (t.a, t.p.n, t.p.z, t.p.c)) =
      some (0x80, true, false, true) := by decide

theorem test_ror_zpx :
    (ran [0x76, 0x10] [(0x0012, 0xFE)]
      { launch with x := 0x02 }).map
      (fun t => (t.mem.read 0x0012, t.p.n, t.p.z, t.p.c)) =
      some (0x7F, false, false, false) := by decide

theorem test_inc_zp_wraps :
    (ran [0xE6, 0x10] [(0x0010, 0xFF)]
      { launch with p := { launch.p with c := true } }).map
      (fun t => (t.mem.read 0x0010, t.p.n, t.p.z)) =
      some (0x00, false, true) := by decide

theorem test_inc_abx :
    (ran [0xFE, 0xFF, 0x02] [(0x0300, 0x00)]
      { launch with x := 0x01 }).map
      (fun t => (t.mem.read 0x0300, t.p.n, t.p.z)) =
      some (0x01, false, false) := by decide

theorem test_dec_zp_wraps :
    (ran [0xC6, 0x10] [(0x0010, 0x00)] launch).map (fun t => (t.mem.read 0x0010, t.p.n, t.p.z)) =
      some (0xFF, true, false) := by decide

theorem test_inx :
    (ran [0xE8] [] { launch with x := 0x7F }).map (fun t => (t.x, t.p.n, t.p.z)) =
      some (0x80, true, false) := by decide

theorem test_iny :
    (ran [0xC8] [] { launch with y := 0x00, x := 0x55 }).map (fun t => (t.y, t.p.n, t.p.z)) =
      some (0x01, false, false) := by decide

theorem test_dex :
    (ran [0xCA] [] { launch with x := 0x00 }).map (fun t => (t.x, t.p.n, t.p.z)) =
      some (0xFF, true, false) := by decide

theorem test_dey :
    (ran [0x88] [] { launch with y := 0x00, x := 0x55 }).map (fun t => (t.y, t.p.n, t.p.z)) =
      some (0xFF, true, false) := by decide

theorem test_beq_taken :
    (ran [0xF0, 0x05] [] { launch with pc := 0x0300, p := { launch.p with z := true } }).map (fun t => t.pc) =
      some 0x0307 := by decide

theorem test_bne_backward :
    (ran [0xD0, 0xFB] [] { launch with pc := 0x0305 }).map (fun t => t.pc) =
      some 0x0302 := by decide

theorem test_bcc_farthest_back :
    (ran [0x90, 0x80] [] { launch with pc := 0x0300 }).map (fun t => t.pc) =
      some 0x0282 := by decide

theorem test_bcs_not_taken :
    (ran [0xB0, 0x10] [] { launch with pc := 0x0300 }).map (fun t => t.pc) =
      some 0x0302 := by decide

theorem test_bmi_a7_is_minus_89 :
    (ran [0x30, 0xA7] [] { launch with pc := 0x1000, p := { launch.p with n := true } }).map (fun t => t.pc) =
      some 0x0FA9 := by decide

theorem test_bpl_crosses_page :
    (ran [0x10, 0x02] [] { launch with pc := 0x10FD }).map (fun t => t.pc) =
      some 0x1101 := by decide

theorem test_bvc_wraps_below_zero :
    (ran [0x50, 0xFC] [] { launch with pc := 0x0000 }).map (fun t => t.pc) =
      some 0xFFFE := by decide

theorem test_bvs_not_taken_at_the_top :
    (ran [0x70, 0x02] [] { launch with pc := 0xFFFE }).map (fun t => t.pc) =
      some 0x0000 := by decide

theorem test_jmp_ind :
    (ran [0x6C, 0x5F, 0x21] [(0x215F, 0x76), (0x2160, 0x30)] { launch with pc := 0x0300 }).map (fun t => t.pc) =
      some 0x3076 := by decide

theorem test_jmp_ind_same_page :
    (ran [0x6C, 0xFF, 0x21] [(0x21FF, 0x76), (0x2100, 0x30), (0x2200, 0x40)]
      { launch with pc := 0x0300, par := { Params.standard with jmpIndPageWrap := .samePage } }).map
      (fun t => t.pc) =
      some 0x3076 := by decide

theorem test_jmp_ind_next_page :
    (ran [0x6C, 0xFF, 0x21] [(0x21FF, 0x76), (0x2100, 0x30), (0x2200, 0x40)]
      { launch with pc := 0x0300, par := { Params.standard with jmpIndPageWrap := .nextPage } }).map
      (fun t => t.pc) =
      some 0x4076 := by decide

theorem test_jsr_wraps :
    (ran [0x20, 0x34, 0x12] []
      { launch with pc := 0x80FE, sp := 0x01 }).map
      (fun t => (t.sp, t.pc, t.mem.read 0x0101, t.mem.read 0x0100)) =
      some (0xFF, 0x1234, 0x81, 0x00) := by decide

theorem test_rts_adds_one :
    (ran [0x60] [(0x01FE, 0xFF), (0x01FF, 0xFF)]
      { launch with pc := 0x0400, sp := 0xFD }).map
      (fun t => (t.sp, t.pc)) =
      some (0xFF, 0x0000) := by decide

theorem test_clc :
    (ran [0x18] []
      { launch with p := { launch.p with n := true, v := true, d := true, i := true, z := true, c := true } }).map
      (fun t => (t.p.c, t.p.n)) =
      some (false, true) := by decide

theorem test_sec :
    (ran [0x38] [] launch).map (fun t => (t.p.c, t.p.n)) =
      some (true, false) := by decide

theorem test_cld :
    (ran [0xD8] []
      { launch with p := { launch.p with n := true, v := true, d := true, i := true, z := true, c := true } }).map
      (fun t => (t.p.d, t.p.c)) =
      some (false, true) := by decide

theorem test_sed :
    (ran [0xF8] [] launch).map (fun t => (t.p.d, t.p.c)) =
      some (true, false) := by decide

theorem test_cli :
    (ran [0x58] []
      { launch with p := { launch.p with n := true, v := true, d := true, i := true, z := true, c := true } }).map
      (fun t => (t.p.i, t.p.d)) =
      some (false, true) := by decide

theorem test_sei :
    (ran [0x78] [] launch).map (fun t => (t.p.i, t.p.d)) =
      some (true, false) := by decide

theorem test_clv :
    (ran [0xB8] []
      { launch with p := { launch.p with n := true, v := true, d := true, i := true, z := true, c := true } }).map
      (fun t => (t.p.v, t.p.n)) =
      some (false, true) := by decide

theorem test_nop :
    (ran [0xEA] []
      { launch with p := { launch.p with n := true, v := true, d := true, i := true, z := true, c := true } }).map
      (fun t => (t.pc, t.p.n, t.p.c)) =
      some (0x0201, true, true) := by decide

theorem test_brk :
    (ran [0x00] [(0xFFFE, 0x00), (0xFFFF, 0x90)]
      { launch with pc := 0x0300, p := { launch.p with n := true, c := true } }).map
      (fun t => (t.pc, t.mem.read 0x01FF, t.mem.read 0x01FE, t.mem.read 0x01FD, t.p.i, t.p.b)) =
      some (0x9000, 0x03, 0x02, 0xB1, true, true) := by decide

theorem test_brk_wraps :
    (ran [0x00] [(0xFFFE, 0x34), (0xFFFF, 0x12)]
      { launch with pc := 0x12FF, sp := 0x01, p := { launch.p with d := true, i := true, z := true } }).map
      (fun t => (t.pc, t.mem.read 0x0101, t.mem.read 0x0100, t.mem.read 0x01FF, t.p.i, t.p.b)) =
      some (0x1234, 0x13, 0x01, 0x3E, true, true) := by decide

theorem test_rti :
    (ran [0x40] [(0x01FF, 0xCF), (0x0100, 0x34), (0x0101, 0x12)]
      { launch with pc := 0x9000, sp := 0xFE }).map
      (fun t => (t.sp, t.pc, t.p)) =
      some (0x01, 0x1234, ⟨true, true, false, true, true, true, true⟩) := by decide

/-! Stops (95_test_vectors.md 2.11). -/

theorem test_stop_reserved : stop (step (placeAtPc [0x02] launch)) = some (.reservedOpcode 0x02) := by decide
theorem test_stop_ror_without_ror :
    stop (step (poke [(0x0200, 0x6A)] { launch with par := { Params.standard with hasRor := false } })) =
      some (.reservedOpcode 0x6A) := by decide
theorem test_stop_jmp_at_page_end :
    stop (step (placeAtPc [0x6C, 0xFF, 0x21] launch)) = some (.jmpIndirectPageEnd 0x21FF) := by decide
theorem test_stop_jsr_first_push :
    stop (step (placeAtPc [0x20, 0x00, 0x04] { launch with pc := 0x01FD })) =
      some (.jsrOverwritesOperand 0x01FF) := by decide
theorem test_stop_jsr_second_push :
    stop (step (placeAtPc [0x20, 0x00, 0x04] { launch with pc := 0x01FC })) =
      some (.jsrOverwritesOperand 0x01FE) := by decide
theorem test_jsr_in_the_stack_page :
    (ran [0x20, 0x00, 0x04] [] { launch with pc := 0x0180 }).map (fun t => (t.pc, t.sp, t.mem.read 0x01FE)) =
      some (0x0400, 0xFD, 0x82) := by decide

/-! The parameters (00_scope.md R3). -/

/-- 95_test_vectors.md E12. -/
theorem test_bmi_sign_magnitude :
    (ran [0xF0, 0xA7] [] { launch with
      pc := 0x1000, p := { launch.p with z := true }
      par := { Params.standard with relOffset := .signMagnitude } }).map (fun t => t.pc) =
      some 0x0FDB := by decide

/-- 95_test_vectors.md 2.3: under `push_only` bit 4 is 1. -/
theorem test_php_push_only :
    (ran [0x08] [] { launch with
      p := { launch.p with n := true, c := true }
      par := { Params.standard with bFlagModel := .pushOnly } }).map (fun t => t.mem.read 0x01FF) =
      some 0xB1 := by decide

/-- R59: ROM ignores a write. -/
theorem test_rom_ignores_a_write :
    (after (exec (.staAbs 0xE000) { launch with
      a := 0x12
      par := { Params.standard with memoryMap := [⟨0xE000, 0xFFFF, .rom⟩] } })).map (fun t => t.mem) =
      some [] := by decide

/-! Interrupts and reset (95_test_vectors.md 2.12). -/

theorem test_irq :
    (after (step (poke [(0xFFFF, 0x07)] { launch with
      pc := 0x0603, irq := true, p := { launch.p with n := true, c := true, b := true } }))).map
        (fun t => (t.pc, t.sp, t.p.i, t.p.b, t.mem.read 0x01FE, t.mem.read 0x01FD)) =
      some (0x0700, 0xFC, true, true, 0x03, 0xA1) := by decide

theorem test_nmi_edge_while_i_is_set :
    (after (step (poke [(0xFFFA, 0x34), (0xFFFB, 0x12)] { launch with
      pc := 0xC000, sp := 0x80, p := { launch.p with i := true, d := true, z := true }
      inputs := [⟨false, true, true⟩] }))).map
        (fun t => (t.pc, t.sp, t.nmiPending, t.p.d, t.mem.read 0x017E)) =
      some (0x1234, 0x7D, false, true, 0x2E) := by decide

theorem test_irq_masked :
    (after (step (poke [(0x0200, 0xEA)] { launch with irq := true, p := { launch.p with i := true } }))).map
      (fun t => t.pc) = some 0x0201 := by decide

theorem test_reset_event :
    (after (step (poke [(0xFFFD, 0xE0)] { launch with resetLine := true, nmiPending := true }))).map
      (fun t => (t.pc, t.p.i, t.nmiPending, t.mem)) =
      some (0xE000, true, false, [(0xFFFD, 0xE0)]) := by decide

/-- 70_reset_and_hazards.md R295 and 47_branch.md R204. -/
theorem test_cycles :
    (instrCycles (.ldaAbx 0x31F6) { launch with x := 0x0F }, instrCycles (.staAbx 0x31F6) { launch with x := 0x0F },
      instrCycles (.bne 0xFB) launch, instrCycles (.reserved 0x02) launch) = (some 5, some 5, some 4, none) := by
  decide

/-- The first step from reset with an instruction placed at PC runs it. -/
theorem test_with_fetch_word :
    (after (step (State.reset.withFetchWord 16 0x0AA9))).map (fun t => (t.a, t.pc)) = some (0x0A, 0x0002) := by
  decide

theorem test_reset_memory_wf : Memory.wf State.reset.mem := ⟨List.Pairwise.nil, by simp [State.reset]⟩

/-! Launches (R283) and the end of a run (R290). -/

/-- The reset vector, and `SED`, `JMP $0401` where it points. -/
def resetImage : Image :=
  [(0xFFFC, 0x00), (0xFFFD, 0x04), (0x0400, 0xF8), (0x0401, 0x4C), (0x0402, 0x01), (0x0403, 0x04)]

/-- What an end of a run shows of PC, I, D and the pending edge: with `true` where the condition held. -/
def seen (e : RunEnd) : Option (Bool × Word × Bool × Bool × Bool) :=
  match e with
  | .halted s => some (true, s.pc, s.p.i, s.p.d, s.nmiPending)
  | .going s => some (false, s.pc, s.p.i, s.p.d, s.nmiPending)
  | .refused _ => none

/-- R283: from reset PC is the word at the vector, I is 1 and no edge is pending, whatever the state was. -/
theorem test_launch_from_reset :
    ((launchState .fromReset resetImage { launch with nmiPending := true }).toOption).map
      (fun s => (s.pc, s.p.i, s.nmiPending, s.mem)) =
        some (0x0400, true, false,
          [(0x0400, 0xF8), (0x0401, 0x4C), (0x0402, 0x01), (0x0403, 0x04), (0xFFFD, 0x04)]) := by decide

/-- R283: at a stated entry point what the claim lists has its value, and no edge is pending. -/
theorem test_launch_from_entry :
    ((launchState (.fromEntry ⟨0x0200, some 0x20, none, none, some 0xFF, none, none, none, some false, none, none, some true⟩) []
      { launch with nmiPending := true }).toOption).map (fun s => (s.pc, s.a, s.sp, s.p.d, s.p.c, s.nmiPending)) =
        some (0x0200, 0x20, 0xFF, false, true, false) := by decide

/-- The premises of `launchState_isLaunch`. -/
theorem test_reset_image_is_wf : (resetImage.map Prod.fst).Nodup ∧
    ∀ a ∈ [Config.vecReset, Config.vecReset + 1], a ∈ resetImage.map Prod.fst ∧ launch.kindAt a ≠ .unmapped := by
  simp [resetImage, Config.vecReset, State.kindAt, launch, State.reset, Params.standard]

/-- R290: from reset the program runs its SED and ends at the JMP to itself. -/
theorem test_program_halts_at_jmp_to_itself :
    seen (runFromLaunch .fromReset resetImage .ownAddress 3 launch) = some (true, 0x0401, true, true, false) := by decide

/-- R290: a taken branch to itself ends a program, and a branch not taken does not. -/
theorem test_halts_at_branch_to_itself :
    seen (runUntil .ownAddress 1 (placeAtPc [0xD0, 0xFE] launch)) = some (true, 0x0200, false, false, false) ∧
      seen (runUntil .ownAddress 1 (placeAtPc [0xF0, 0xFE] launch)) = some (false, 0x0202, false, false, false) := by decide

/-- R290: serving an event is no instruction: an NMI whose handler is where PC is ends no program. -/
theorem test_event_does_not_halt :
    seen (runUntil .ownAddress 1 { poke [(0xFFFB, 0x02)] launch with nmiPending := true }) =
      some (false, 0x0200, true, false, false) := by decide

/-- R290: the other usable conditions. -/
theorem test_other_halt_conditions :
    seen (runUntil (.pcAt 0x0201) 2 (placeAtPc [0xEA, 0xEA] launch)) = some (true, 0x0201, false, false, false) ∧
      seen (runUntil .stepsOnly 1 (placeAtPc [0xEA, 0xEA] launch)) = some (false, 0x0201, false, false, false) ∧
      seen (runUntil .brkNext 2 (placeAtPc [0xEA, 0x00] launch)) = some (true, 0x0201, false, false, false) := by decide

/-! Witnesses: for each statement with hypotheses, a state and operands that meet them. -/

/-- A platform with ROM from E000, nothing at D000 to DFFF and a device at C000 to C0FF. -/
def board : State :=
  { launch with par := { Params.standard with
      memoryMap := [⟨0xE000, 0xFFFF, .rom⟩, ⟨0xD000, 0xDFFF, .unmapped⟩], ioRegions := [⟨0xC000, 0xC0FF⟩] } }

/-- A platform with ROM in the stack page. -/
def romStack : State := { launch with par := { Params.standard with memoryMap := [⟨0x0100, 0x01FF, .rom⟩] } }

/-- A platform with a device at the top of the stack page. -/
def noStack : State := { launch with par := { Params.standard with ioRegions := [⟨0x01FF, 0x01FF⟩] } }

theorem witness_DecodeOfEncodeIsTheInstruction :
    Instr.wf true .rorAcc = true ∧ Instr.wf false (.reserved 0x6A) = true ∧ Instr.wf false (.ldaAbs 0xFFFF) = true := by decide

theorem witness_EncodeOfDecodeIsTheBytes : decode true [0xAD, 0xF6, 0x31, 0xAA] = .ok (.ldaAbs 0x31F6, [0xAA]) := rfl

theorem witness_OpcodeByteDecidesForm :
    decode true [0xA9, 0x0A] = .ok (.ldaImm 0x0A, []) ∧ decode true [0xA9, 0xFF, 0x02] = .ok (.ldaImm 0xFF, [0x02]) := ⟨rfl, rfl⟩

theorem witness_ReservedOpcodesAreRefused :
    State.Quiet (poke [(0x0200, 0xFF)] launch) ∧
      readByte 0x0200 (sampleInputs (poke [(0x0200, 0xFF)] launch)) = .ok (0xFF, poke [(0x0200, 0xFF)] launch) ∧
      isReserved true 0xFF = true := ⟨rfl, rfl, by decide⟩

/-- The clauses of MemoryAccesses at the edges of the regions of `board`. -/
theorem witness_MemoryAccesses :
    board.isIo 0xC000 = true ∧ board.isIo 0xC0FF = true ∧
      (board.isIo 0xBFFF = false ∧ board.kindAt 0xBFFF = .ram) ∧
      (board.isIo 0xC100 = false ∧ board.kindAt 0xC100 = .ram) ∧
      (board.isIo 0xD000 = false ∧ board.kindAt 0xD000 = .unmapped) ∧
      (board.isIo 0xDFFF = false ∧ board.kindAt 0xDFFF = .unmapped) ∧
      (board.isIo 0xE000 = false ∧ board.kindAt 0xE000 = .rom) ∧
      (board.isIo 0xFFFF = false ∧ board.kindAt 0xFFFF = .rom) := by decide

/-- Both reads of SixteenBitReads where the second address wraps. -/
theorem witness_SixteenBitReads :
    (readByte 0xFFFF launch = .ok (0, launch) ∧ readByte (0xFFFF + 1) launch = .ok (0, launch)) ∧
      readByte (zeroPage 0xFF) launch = .ok (0, launch) ∧ readByte (zeroPage (0xFF + 1)) launch = .ok (0, launch) :=
  ⟨⟨rfl, rfl⟩, rfl, rfl⟩

/-- PushAndPullRules with SP at both ends of the page. -/
theorem witness_PushAndPullRules :
    writeByte (stackAddress 0x00) 0x99 { launch with sp := 0x00 } =
        .ok { launch with sp := 0x00, mem := [(0x0100, 0x99)] } ∧
      readByte (stackAddress (0xFF + 1)) { launch with sp := 0xFF + 1 } = .ok (0, { launch with sp := 0xFF + 1 }) := ⟨rfl, rfl⟩

theorem witness_PullAfterPush :
    launch.isIo (stackAddress launch.sp) = false ∧ launch.kindAt (stackAddress launch.sp) = .ram := by decide

theorem witness_StoreToCodeIsFetchedNext : State.PlainMemory { launch with a := 0xEA } := ⟨rfl, rfl⟩
theorem witness_InterruptEntrySavesTheFrame : State.PlainMemory { launch with sp := 0x01 } := ⟨rfl, rfl⟩
theorem witness_BreakThenReturn : State.PlainMemory launch := ⟨rfl, rfl⟩

theorem witness_EffectiveAddresses :
    ((0x01 : Byte).toNat = ((0xFF : Byte).toNat + (2 : Byte).toNat) % 256 ∧
      read16zp 0x01 { launch with x := 2 } = .ok (0, { launch with x := 2 })) ∧
      read16zp 0xFF launch = .ok (0, launch) := ⟨⟨rfl, rfl⟩, rfl⟩

theorem witness_OperandReads :
    effectiveAddress (.izx 0xFF) launch = .ok (0, launch) ∧ operand (.mem (.abs 0xD000)) board =
      .ok (Config.freeByte 0, { board with draws := 1 }) := ⟨rfl, rfl⟩

/-- IndirectJumpTarget: the end of a page with each value of the parameter, and the byte before it. -/
theorem witness_IndirectJumpTarget :
    readByte 0x21FF launch = .ok (0, launch) ∧ loByte 0x21FF = 0xFF ∧ launch.par.jmpIndPageWrap = .unset ∧
      (loByte 0x21FE ≠ 0xFF ∧ readByte (0x21FE + 1) launch = .ok (0, launch)) ∧
      readByte (wordOf (hiByte 0x21FF) 0x00) { launch with par := { Params.standard with jmpIndPageWrap := .samePage } } =
        .ok (0, { launch with par := { Params.standard with jmpIndPageWrap := .samePage } }) ∧
      readByte (0x21FF + 1) { launch with par := { Params.standard with jmpIndPageWrap := .nextPage } } =
        .ok (0, { launch with par := { Params.standard with jmpIndPageWrap := .nextPage } }) :=
  ⟨rfl, rfl, rfl, ⟨by decide, rfl⟩, rfl, rfl⟩

theorem witness_BranchTargets : (0x7F : Byte).toNat < 128 := by decide

theorem witness_LoadsReadTheirOperand :
    operand (.imm 0xFF) launch = .ok (0xFF, launch) ∧
      operand (.mem (.zpy 0x10)) { launch with y := 0xFF } = .ok (0, { launch with y := 0xFF }) ∧
      operand (.mem (.abx 0xFFFF)) { launch with x := 1 } = .ok (0, { launch with x := 1 }) := ⟨rfl, rfl, rfl⟩

theorem witness_ComparesSetFlagsOnly :
    operand (.imm 0x80) launch = .ok (0x80, launch) ∧ operand (.mem (.aby 0xFFFF)) launch = .ok (0, launch) := ⟨rfl, rfl⟩

theorem witness_LogicResults :
    operand (.imm 0x0F) launch = .ok (0x0F, launch) ∧
      operand (.mem (.zpx 0xFF)) { launch with x := 1 } = .ok (0, { launch with x := 1 }) ∧
      operand (.mem (.izy 0xFF)) launch = .ok (0, launch) := ⟨rfl, rfl, rfl⟩

theorem witness_BitTestsMemory : operand (.mem (.zp 0x10)) (poke [(0x0010, 0xC0)] launch) =
    .ok (0xC0, poke [(0x0010, 0xC0)] launch) := rfl

theorem witness_AccumulatorShifts :
    (Instr.rorAcc, rorByte 0x01 true) ∈ ([(.aslAcc, aslByte 0x01 true), (.lsrAcc, lsrByte 0x01 true),
      (.rolAcc, rolByte 0x01 true), (.rorAcc, rorByte 0x01 true)] : List (Instr × Byte × Bool)) := by decide

theorem witness_FlagInstructions :
    (Instr.sei, { launch.p with i := true }) ∈
      ([(.cli, { launch.p with i := false }), (.sei, { launch.p with i := true })] : List (Instr × Status)) := by decide

/-- StoresWriteTheirRegister: RAM, ROM and a device. -/
theorem witness_StoresWriteTheirRegister :
    effectiveAddress (.abs 0x0300) board = .ok (0x0300, board) ∧ (board.isIo 0x0300 = false ∧ board.kindAt 0x0300 = .ram) ∧
      (board.isIo 0xE000 = false ∧ board.kindAt 0xE000 ≠ .ram) ∧ board.isIo 0xC0FF = true := ⟨rfl, by decide⟩

/-- StackInstructions: a push into RAM, one into ROM, one into a device, and a pull. -/
theorem witness_StackInstructions :
    (launch.isIo (stackAddress launch.sp) = false ∧ launch.kindAt (stackAddress launch.sp) = .ram) ∧
      (romStack.isIo (stackAddress romStack.sp) = false ∧ romStack.kindAt (stackAddress romStack.sp) ≠ .ram) ∧
      State.isIo { launch with par := { Params.standard with ioRegions := [⟨0x01FF, 0x01FF⟩] } } (stackAddress 0xFF) = true ∧
      pull launch = .ok (0, { launch with sp := 0x00 }) := ⟨by decide, by decide, by decide, rfl⟩

/-- AddAndSubtractResults: both operations, in binary and in decimal mode. -/
theorem witness_AddAndSubtractResults :
    settleDecimal 0x46 (adcBinary 0x58 0x46 true) launch = (adcBinary 0x58 0x46 true, launch) ∧
      settleDecimal 0x46 (sbcDecimal 0x58 0x46 true) { launch with p := { launch.p with d := true } } =
        (sbcDecimal 0x58 0x46 true, { launch with p := { launch.p with d := true } }) := ⟨rfl, rfl⟩

/-- The clauses of DecimalParameters, with operands on either side of valid BCD. -/
theorem witness_DecimalParameters :
    launch.p.d = false ∧
      (launch.par.decimalNvz = .formula ∧ launch.par.decimalInvalidBcd = .formula) ∧
      (let s : State := { launch with
        p := { launch.p with d := true }
        par := { Params.standard with decimalInvalidBcd := .draw } }
       s.p.d = true ∧ s.par.decimalNvz = .formula ∧ invalidBcd s.a = false) ∧
      (invalidBcd 0x99 = false ∧ invalidBcd 0x90 = false) ∧
      (invalidBcd 0x9A = true ∧ invalidBcd 0xA0 = true) ∧
      (let s : State := { launch with
        p := { launch.p with d := true }
        par := { Params.standard with decimalNvz := .draw, decimalInvalidBcd := .draw } }
       s.p.d = true ∧ s.par.decimalNvz = .draw ∧ s.par.decimalInvalidBcd = .draw ∧ invalidBcd s.a = false) := by decide

/-- AdcDecimalAddsBcd: valid BCD; and a binary sum with its low-digit correction and one without. -/
theorem witness_AdcDecimalAddsBcd : (invalidBcd 0x99 = false ∧ invalidBcd 0x01 = false) ∧
    (0xA0 : Nat) = (0x99 : Byte).toNat + (0x01 : Byte).toNat + false.toNat + 6 ∧ 9 + 1 + false.toNat > 9 ∧
    (0x99 : Nat) = (0x98 : Byte).toNat + (0x00 : Byte).toNat + true.toNat + 0 ∧ ¬ 8 + 0 + true.toNat > 9 := by decide
/-- SbcDecimalSubtractsBcd: valid BCD; and a binary difference whose correction makes it negative. -/
theorem witness_SbcDecimalSubtractsBcd : (invalidBcd 0x00 = false ∧ invalidBcd 0x99 = false) ∧
    (-5 : Int) = ((0x10 : Byte).toNat : Int) - (0x0F : Byte).toNat - (1 - true.toNat) - 6 ∧
    0x10 % 16 + true.toNat < 0x0F % 16 + 1 := by decide

/-- ReadModifyWriteResults: in RAM, at the top of memory, and in ROM. -/
theorem witness_ReadModifyWriteResults :
    effectiveAddress (.abx 0xFFFF) { launch with x := 1 } = .ok (0, { launch with x := 1 }) ∧
      readByte 0x0000 { launch with x := 1 } = .ok (0, { launch with x := 1 }) ∧ launch.kindAt 0x0000 = .ram ∧
      effectiveAddress (.abs 0xFFFF) board = .ok (0xFFFF, board) ∧ readByte 0xFFFF board = .ok (0, board) ∧
      board.kindAt 0xFFFF ≠ .ram := ⟨rfl, rfl, rfl, rfl, rfl, by decide⟩

/-- BranchesTestOneFlag: a branch taken and one not taken. -/
theorem witness_BranchesTestOneFlag : (!launch.p.c) = true ∧ launch.p.z = false := by decide

/-- JumpsAssignPc: a target that is found and one that is refused. -/
theorem witness_JumpsAssignPc :
    indirectTarget 0x215F launch = .ok (0, launch) ∧ indirectTarget 0x21FF launch = .error (.jmpIndirectPageEnd 0x21FF) :=
  ⟨rfl, rfl⟩

/-- JsrPushesItsLastByteAddress: both overlaps, and a JSR in the stack page beside them. -/
theorem witness_JsrPushesItsLastByteAddress :
    (0x01FD : Word) + 2 = stackAddress 0xFF ∧ (0x01FC : Word) + 2 = stackAddress (0xFF - 1) ∧
      ((0x01FB : Word) + 2 ≠ stackAddress 0xFF ∧ (0x01FB : Word) + 2 ≠ stackAddress (0xFF - 1)) ∧
      launch.isIo (stackAddress 0xFF) = false ∧ launch.isIo (stackAddress (0xFF - 1)) = false ∧
      launch.kindAt (stackAddress 0xFF) = .ram ∧ launch.kindAt (stackAddress (0xFF - 1)) = .ram ∧
      romStack.kindAt (stackAddress 0xFF) ≠ .ram ∧ romStack.kindAt (stackAddress (0xFF - 1)) ≠ .ram := by decide

/-- Two pulls over the end of the stack page. -/
theorem witness_RtsReturnsPastThePulledAddress :
    pull { launch with sp := 0xFE } = .ok (0, { launch with sp := 0xFF }) ∧
      pull { launch with sp := 0xFF } = .ok (0, { launch with sp := 0x00 }) := ⟨rfl, rfl⟩

theorem witness_RtiRestoresStatusAndPc :
    pull { launch with sp := 0xFE } = .ok (0, { launch with sp := 0xFF }) ∧
      pull { launch with sp := 0xFF } = .ok (0, { launch with sp := 0x00 }) ∧
      pull { launch with sp := 0x00 } = .ok (0, { launch with sp := 0x01 }) := ⟨rfl, rfl, rfl⟩

theorem witness_CallThenReturn : State.PlainMemory launch ∧ jsrOverlaps launch = false := ⟨⟨rfl, rfl⟩, by decide⟩

theorem witness_InterruptEntryFrame : (takeInterrupt .irq board).isOk = true := by decide

/-- StepServesEventsInOrder: all three requests at once, two, one, and an IRQ that I masks. -/
theorem witness_StepServesEventsInOrder :
    sampleInputs { launch with inputs := [⟨true, true, true⟩] } =
        { launch with resetLine := true, irq := true, nmiPending := true } ∧
      sampleInputs { launch with irq := true, nmiPending := true } = { launch with irq := true, nmiPending := true } ∧
      sampleInputs { launch with irq := true } = { launch with irq := true } ∧
      sampleInputs { launch with irq := true, p := Status.atReset } = { launch with irq := true, p := Status.atReset } ∧
      fetchInstr { launch with irq := true, p := Status.atReset } =
        .ok (.brk, { launch with irq := true, p := Status.atReset }) ∧
      fetchInstr { board with pc := 0xC000 } = .error (.ioRegion 0xC000) := ⟨rfl, rfl, rfl, rfl, rfl, rfl⟩

theorem witness_ResetEventRule :
    board.isIo 0xFFFC = false ∧ board.isIo 0xFFFD = false ∧ board.kindAt 0xFFFC ≠ .unmapped ∧
      board.kindAt 0xFFFD ≠ .unmapped := by decide

/-- StepRunsTheDecodedInstruction: an instruction whose last byte is at the top of memory. -/
theorem witness_StepRunsTheDecodedInstruction :
    let s := poke [(0xFFFD, 0xAD), (0xFFFE, 0xF6), (0xFFFF, 0x31)] { launch with pc := 0xFFFD }
    sampleInputs s = s ∧ pendingEvent s = none ∧
      (∀ k : Nat, k < (encode (.ldaAbs 0x31F6)).length →
        s.isIo (s.pc + BitVec.ofNat 16 k) = false ∧ s.kindAt (s.pc + BitVec.ofNat 16 k) ≠ .unmapped) ∧
      decode s.par.hasRor [s.mem.read s.pc.toNat, s.mem.read (s.pc + 1).toNat, s.mem.read (s.pc + 2).toNat] =
        .ok (.ldaAbs 0x31F6, []) :=
  ⟨rfl, rfl, fun k hk => by
    have h3 : k < 3 := hk
    interval_cases k <;> exact ⟨rfl, by decide⟩, rfl⟩

/-- EveryInstructionCompletes: a JSR beside its overlap, a JMP at the end of a page with the parameter set, one elsewhere while it
is unset, and another instruction. -/
theorem witness_EveryInstructionCompletes :
    State.NoDevices launch ∧ jsrOverlaps { launch with pc := 0x01FB } = false ∧
      (loByte 0x21FF = 0xFF ∧ JmpIndPageWrap.nextPage ≠ .unset) ∧ loByte 0x21FE ≠ 0xFF ∧
      (∀ a, Instr.nop ≠ .jsr a) ∧ (∀ a, Instr.nop ≠ .jmpInd a) ∧ ∀ op, Instr.nop ≠ .reserved op :=
  ⟨rfl, by decide, by decide, by decide, fun _ h => (by cases h), fun _ h => (by cases h), fun _ h => by cases h⟩

/-- OnlyTheListedStops: each stop happens, in an instruction, in a fetch and in serving an event. -/
theorem witness_OnlyTheListedStops :
    exec (.reserved 0x02) launch = .refused (.reservedOpcode 0x02) ∧
      exec (.jmpInd 0x21FF) launch = .refused (.jmpIndirectPageEnd 0x21FF) ∧
      exec (.jsr 0x0400) { launch with pc := 0x01FD } = .refused (.jsrOverwritesOperand 0x01FF) ∧
      exec (.ldaAbs 0xC000) board = .refused (.ioRegion 0xC000) ∧
      step { board with pc := 0xC000 } = .refused (.ioRegion 0xC000) ∧
      step { noStack with nmiPending := true } = .refused (.ioRegion 0x01FF) ∧
      step (placeAtPc [0x02] launch) = .refused (.reservedOpcode 0x02) := ⟨rfl, rfl, rfl, rfl, rfl, rfl, rfl⟩

/-- DeviceAccessesAreRefused: a pointer in a device region, an operand in one, and the first or a later access of the others. -/
theorem witness_DeviceAccessesAreRefused :
    let s : State := { launch with par := { Params.standard with ioRegions := [⟨0x00FF, 0x0100⟩, ⟨0x01FE, 0x01FF⟩] } }
    let u : State := { launch with par := { Params.standard with ioRegions := [⟨0x01FD, 0x01FD⟩, ⟨0xFFFF, 0xFFFF⟩] } }
    (memFormOf (.ldaIzy 0xFF) = some (.izy 0xFF) ∧ effectiveAddress (.izy 0xFF) s = .error (.ioRegion 0x00FF)) ∧
      (memFormOf (.incAbs 0x0100) = some (.abs 0x0100) ∧ effectiveAddress (.abs 0x0100) s = .ok (0x0100, s) ∧
        s.isIo 0x0100 = true) ∧
      ([zeroPage 0xFF, zeroPage (0xFF + 1)].find? s.isIo = some 0x00FF ∧ memFormOf (.staIzx 0xFE) = some (.izx 0xFE)) ∧
      [zeroPage 0xFE, zeroPage (0xFE + 1)].find? s.isIo = some 0x00FF ∧
      [stackAddress s.sp].find? s.isIo = some 0x01FF ∧ [stackAddress (s.sp + 1)].find? s.isIo = some 0x0100 ∧
      ([stackAddress 0x00, stackAddress (0x00 - 1)].find? s.isIo = some 0x0100 ∧ jsrOverlaps s = false) ∧
      [stackAddress u.sp, stackAddress (u.sp - 1), stackAddress (u.sp - 2), 0xFFFE, 0xFFFF].find? u.isIo = some 0x01FD ∧
      [stackAddress 0x00, stackAddress (0x00 - 1), stackAddress (0x00 - 2), 0xFFFE, 0xFFFF].find? u.isIo = some 0xFFFF ∧
      [stackAddress (0xFB + 1), stackAddress (0xFB + 2)].find? u.isIo = some 0x01FD ∧
      [stackAddress (0xFA + 1), stackAddress (0xFA + 2), stackAddress (0xFA + 3)].find? u.isIo = some 0x01FD ∧
      ([0xFFFE, 0xFFFE + 1].find? u.isIo = some 0xFFFF ∧ loByte 0xFFFE ≠ 0xFF) ∧
      ([0xFFFF].find? u.isIo = some 0xFFFF ∧ loByte 0xFFFF = 0xFF ∧ u.par.jmpIndPageWrap = .unset) :=
  ⟨⟨rfl, rfl⟩, ⟨rfl, rfl, rfl⟩, by decide, by decide, by decide, by decide, by decide, by decide, by decide, by decide, by decide, by decide, by decide⟩

theorem witness_StepKeepsTheMemoryForm :
    State.Inv State.reset ∧ (after (step State.reset)).isSome = true :=
  ⟨⟨List.Pairwise.nil, by simp [State.reset]⟩, by decide⟩

theorem witness_StepKeepsTheParameters : (after (step board)).isSome = true := by decide

/-- An instruction that completes and writes the register, for each register. -/
theorem witness_RegisterWriters :
    (after (exec (.ldaImm 0x80) launch)).map (fun t => (t.a, launch.a)) = some (0x80, 0) ∧
      (after (exec .dex launch)).map (fun t => (t.x, launch.x)) = some (0xFF, 0) ∧
      (after (exec .iny launch)).map (fun t => (t.y, launch.y)) = some (1, 0) ∧
      (after (exec .txs launch)).map (fun t => (t.sp, launch.sp)) = some (0, 0xFF) := by decide

/-- An instruction that completes and writes the flag, for each flag. -/
theorem witness_FlagWriters :
    (after (exec .sec launch)).map (fun t => t.p.c) = some true ∧
      (after (exec (.bitZp 0x10) (poke [(0x0010, 0x40)] launch))).map (fun t => t.p.v) = some true ∧
      (after (exec .sed launch)).map (fun t => t.p.d) = some true ∧
      (after (exec .brk launch)).map (fun t => (t.p.i, t.p.b)) = some (true, true) ∧
      (after (exec .dex launch)).map (fun t => (t.p.n, t.p.z)) = some (true, false) := by decide

/-- MemoryWriters: instructions that complete and store one, two and three bytes, one that stores at its operand, and a byte
outside all of these. -/
theorem witness_MemoryWriters :
    (after (exec .pha { launch with a := 1 })).map (fun t => t.mem) = some [(0x01FF, 1)] ∧
      (after (exec (.jsr 0x0400) launch)).map (fun t => t.mem) = some [(0x01FE, 2), (0x01FF, 2)] ∧
      (after (exec .brk launch)).map (fun t => t.mem) = some [(0x01FD, 0x30), (0x01FE, 2), (0x01FF, 2)] ∧
      (after (exec (.incAbs 0x0300) launch)).map (fun t => t.mem) = some [(0x0300, 1)] ∧
      (memFormOf .brk = none ∧ 0x01FC ≠ (stackAddress 0xFF).toNat ∧ 0x01FC ≠ (stackAddress (0xFF - 1)).toNat ∧
        0x01FC ≠ (stackAddress (0xFF - 2)).toNat) := by decide

/-- CycleCounts: a row of the table, an indexed read that crosses a page and one that does not, through a pointer as well, and a
branch. -/
theorem witness_CycleCounts :
    (mnemonic (.ldaZp 0) ∈ ["ADC", "AND", "CMP", "EOR", "LDA", "ORA", "SBC"] ∧ formOf (.ldaZp 0) = some .zp) ∧
      (memFormOf (.ldxAby 0x10FF) = some (.aby 0x10FF) ∧ memFormOf (.ldyAbx 0x10FE) = some (.abx 0x10FE)) ∧
      (memFormOf (.sbcIzy 0xFF) = some (.izy 0xFF) ∧ read16zp 0xFF launch = .ok (0, launch)) :=
  ⟨by decide, by decide, rfl, rfl⟩

/-- An instruction at the top of memory, and a branch taken. -/
theorem witness_PcAdvancesPastTheInstruction :
    (after (exec .nop { launch with pc := 0xFFFF })).map (fun t => t.pc) = some 0 ∧
      (after (exec (.bne 0xFE) launch)).map (fun t => t.pc) = some 0x0200 ∧ mnemonic (.bne 0xFE) ∉ ["JMP", "JSR"] := by decide

end Sys2Proof.Tests
end

/-! Every instruction, every event and so every step keeps the parameters of R3 and the canonical form of memory (`Keeps`): once
for each shape of instruction, then for the instructions with a meaning of their own, then for `exec` and `step`. -/

namespace Sys2Proof.Machine

/-! The shapes. -/

theorem State.advance_keeps (s : State) (n : Word) : Keeps s (s.advance n) := .of_eq rfl rfl

theorem runRead_keeps {update : Byte → State → State} {f : ReadForm} {s t : State}
    (h : runRead update f s = .next t) (hu : ∀ m u, Keeps u (update m u)) : Keeps s t := by
  obtain ⟨m, u, hop, rfl⟩ := runRead_next.mp h
  exact ((Keeps.of_frame (operand_frame hop)).trans (hu m u)).trans (State.advance_keeps _ _)

theorem runStore_keeps {v : Byte} {m : MemForm} {s t : State} (h : runStore v m s = .next t) : Keeps s t := by
  obtain ⟨ea, u, w, hea, hw, rfl⟩ := runStore_next.mp h
  exact ((Keeps.of_frame (effectiveAddress_frame hea)).trans (writeByte_keeps hw)).trans (State.advance_keeps _ _)

theorem runModifyMemory_keeps {compute : Byte → Status → Byte × Status} {m : MemForm} {s t : State}
    (h : runModifyMemory compute m s = .next t) : Keeps s t := by
  obtain ⟨ea, u, v, w, x, hea, hr, hw, rfl⟩ := runModifyMemory_next.mp h
  have hread : Keeps s w := (Keeps.of_frame (effectiveAddress_frame hea)).trans (.of_frame (readByte_frame hr))
  have hflags : Keeps w (w.setP (compute v w.p).2) := .of_eq rfl rfl
  exact ((hread.trans hflags).trans (writeByte_keeps hw)).trans (State.advance_keeps _ _)

theorem runModify_keeps {compute : Byte → Status → Byte × Status} {f : ModifyForm} {s t : State}
    (h : runModify compute f s = .next t) : Keeps s t := by
  cases f with
  | acc => cases h; exact .of_eq rfl rfl
  | mem m => exact runModifyMemory_keeps h

theorem runImplied_keeps {update : State → State} {s t : State} (h : runImplied update s = .next t)
    (hu : Keeps s (update s)) : Keeps s t := by
  cases h; exact hu.trans (State.advance_keeps _ _)

theorem runPush_keeps {v : Byte} {s t : State} (h : runPush v s = .next t) : Keeps s t := by
  obtain ⟨u, hp, rfl⟩ := runPush_next.mp h
  exact (push_keeps hp).trans (State.advance_keeps _ _)

theorem runPull_keeps {update : Byte → State → State} {s t : State} (h : runPull update s = .next t)
    (hu : ∀ m u, Keeps u (update m u)) : Keeps s t := by
  obtain ⟨m, u, hp, rfl⟩ := runPull_next.mp h
  exact ((pull_keeps hp).trans (hu m u)).trans (State.advance_keeps _ _)

theorem runBranch_keeps {taken : Bool} {b : Byte} {s t : State} (h : runBranch taken b s = .next t) : Keeps s t := by
  cases h; exact .of_eq rfl rfl

/-! The update of ADC and SBC, the instructions with a meaning of their own, and the events. -/

/-- The end of an ADC or SBC writes A, the flags and the count of free values. -/
theorem writeAlu_frame (m : Byte) (r : AluResult) (s : State) :
    ∃ n p a, writeAlu m r s = ((s.setDraws n).setP p).setA a := by
  unfold writeAlu settleDecimal
  split_ifs
  · exact ⟨_, _, _, rfl⟩
  · exact ⟨_, _, _, rfl⟩
  · exact ⟨s.draws, _, _, rfl⟩

theorem writeAlu_keeps (m : Byte) (r : AluResult) (s : State) : Keeps s (writeAlu m r s) := by
  obtain ⟨n, p, a, h⟩ := writeAlu_frame m r s
  rw [h]
  exact .of_eq rfl rfl

theorem execJmpInd_keeps {a : Word} {s t : State} (h : execJmpInd a s = .next t) : Keeps s t := by
  obtain ⟨⟨target, u⟩, hi, h⟩ := bind_ok.mp (outcome_next.mp h)
  cases pure_ok.mp h
  exact (Keeps.of_frame (indirectTarget_frame hi)).trans (.of_eq rfl rfl)

theorem execJsr_keeps {a : Word} {s t : State} (h : execJsr a s = .next t) : Keeps s t := by
  have h := outcome_next.mp h
  dsimp only at h
  split at h
  · cases h
  · obtain ⟨u, hhi, h⟩ := bind_ok.mp h
    obtain ⟨w, hlo, h⟩ := bind_ok.mp h
    cases pure_ok.mp h
    exact ((push_keeps hhi).trans (push_keeps hlo)).trans (.of_eq rfl rfl)

theorem execRts_keeps {s t : State} (h : execRts s = .next t) : Keeps s t := by
  obtain ⟨⟨lo, u⟩, hlo, h⟩ := bind_ok.mp (outcome_next.mp h)
  obtain ⟨⟨hi, w⟩, hhi, h⟩ := bind_ok.mp h
  cases pure_ok.mp h
  exact ((pull_keeps hlo).trans (pull_keeps hhi)).trans (.of_eq rfl rfl)

theorem returnFromInterrupt_keeps {s t : State} (h : returnFromInterrupt s = .ok t) : Keeps s t := by
  obtain ⟨v, target, n, rfl⟩ := returnFromInterrupt_cases h
  exact .of_eq rfl rfl

theorem resetEvent_keeps {s t : State} (h : resetEvent s = .ok t) : Keeps s t := by
  obtain ⟨target, n, -, rfl⟩ := resetEvent_cases h
  exact .of_eq rfl rfl

/-! Instructions, events, steps. -/

/-- An instruction that completes keeps the parameters and the canonical form of memory. -/
theorem exec_keeps {i : Instr} {s t : State} (h : exec i s = .next t) : Keeps s t := by
  unfold exec at h
  cases i with dsimp only at h
  | ldaImm | ldaZp | ldaZpx | ldaAbs | ldaAbx | ldaAby | ldaIzx | ldaIzy =>
    exact runRead_keeps (show lda _ s = _ from h) fun _ _ => .of_eq rfl rfl
  | ldxImm | ldxZp | ldxZpy | ldxAbs | ldxAby =>
    exact runRead_keeps (show ldx _ s = _ from h) fun _ _ => .of_eq rfl rfl
  | ldyImm | ldyZp | ldyZpx | ldyAbs | ldyAbx =>
    exact runRead_keeps (show ldy _ s = _ from h) fun _ _ => .of_eq rfl rfl
  | staZp | staZpx | staAbs | staAbx | staAby | staIzx | staIzy =>
    exact runStore_keeps (show sta _ s = _ from h)
  | stxZp | stxZpy | stxAbs =>
    exact runStore_keeps (show stx _ s = _ from h)
  | styZp | styZpx | styAbs =>
    exact runStore_keeps (show sty _ s = _ from h)
  | adcImm | adcZp | adcZpx | adcAbs | adcAbx | adcAby | adcIzx | adcIzy =>
    exact runRead_keeps (show adc _ s = _ from h) fun _ _ => writeAlu_keeps _ _ _
  | sbcImm | sbcZp | sbcZpx | sbcAbs | sbcAbx | sbcAby | sbcIzx | sbcIzy =>
    exact runRead_keeps (show sbc _ s = _ from h) fun _ _ => writeAlu_keeps _ _ _
  | cmpImm | cmpZp | cmpZpx | cmpAbs | cmpAbx | cmpAby | cmpIzx | cmpIzy =>
    exact runRead_keeps (show cmp _ s = _ from h) fun _ _ => .of_eq rfl rfl
  | cpxImm | cpxZp | cpxAbs =>
    exact runRead_keeps (show cpx _ s = _ from h) fun _ _ => .of_eq rfl rfl
  | cpyImm | cpyZp | cpyAbs =>
    exact runRead_keeps (show cpy _ s = _ from h) fun _ _ => .of_eq rfl rfl
  | andImm | andZp | andZpx | andAbs | andAbx | andAby | andIzx | andIzy =>
    exact runRead_keeps (show andA _ s = _ from h) fun _ _ => .of_eq rfl rfl
  | eorImm | eorZp | eorZpx | eorAbs | eorAbx | eorAby | eorIzx | eorIzy =>
    exact runRead_keeps (show eorA _ s = _ from h) fun _ _ => .of_eq rfl rfl
  | oraImm | oraZp | oraZpx | oraAbs | oraAbx | oraAby | oraIzx | oraIzy =>
    exact runRead_keeps (show oraA _ s = _ from h) fun _ _ => .of_eq rfl rfl
  | bitZp | bitAbs =>
    exact runRead_keeps (show bitTest _ s = _ from h) fun _ _ => .of_eq rfl rfl
  | aslAcc | aslZp | aslZpx | aslAbs | aslAbx =>
    exact runModify_keeps (show asl _ s = _ from h)
  | lsrAcc | lsrZp | lsrZpx | lsrAbs | lsrAbx =>
    exact runModify_keeps (show lsr _ s = _ from h)
  | rolAcc | rolZp | rolZpx | rolAbs | rolAbx =>
    exact runModify_keeps (show rol _ s = _ from h)
  | rorAcc | rorZp | rorZpx | rorAbs | rorAbx =>
    exact runModify_keeps (show ror _ s = _ from h)
  | incZp | incZpx | incAbs | incAbx =>
    exact runModifyMemory_keeps (show inc _ s = _ from h)
  | decZp | decZpx | decAbs | decAbx =>
    exact runModifyMemory_keeps (show dec _ s = _ from h)
  | tax | tay | tsx | txa | txs | tya | inx | iny | dex | dey | clc | cld | cli | clv | sec | sed | sei | nop =>
    exact runImplied_keeps h (.of_eq rfl rfl)
  | pha | php => exact runPush_keeps h
  | pla | plp => exact runPull_keeps h fun _ _ => .of_eq rfl rfl
  | bcc | bcs | beq | bmi | bne | bpl | bvc | bvs => exact runBranch_keeps h
  | jmpAbs => cases h; exact .of_eq rfl rfl
  | jmpInd => exact execJmpInd_keeps h
  | jsr => exact execJsr_keeps h
  | rts => exact execRts_keeps h
  | brk => exact takeInterrupt_keeps (outcome_next.mp h)
  | rti => exact returnFromInterrupt_keeps (outcome_next.mp h)
  | reserved => cases h

theorem sampleInputs_keeps (s : State) : Keeps s (sampleInputs s) := by
  obtain ⟨inputs, reset, irq, nmi, h⟩ := sampleInputs_frame s
  rw [h]
  exact .of_eq rfl rfl

theorem serveEvent_keeps {e : HardwareEvent} {s t : State} (h : serveEvent e s = .ok t) : Keeps s t := by
  cases e with
  | reset => exact resetEvent_keeps h
  | nmi => exact (Keeps.of_eq rfl rfl : Keeps s { s with nmiPending := false }).trans (takeInterrupt_keeps h)
  | irq => exact takeInterrupt_keeps h

/-- Whether it serves an event or runs an instruction, a step keeps the parameters and the canonical form of memory. -/
theorem step_keeps {s t : State} (h : step s = .next t) : Keeps s t := by
  refine (sampleInputs_keeps s).trans ?_
  obtain ⟨e, -, he⟩ | ⟨-, i, n, -, hi⟩ := step_cases h
  · exact serveEvent_keeps he
  · exact (Keeps.of_frame ⟨n, rfl⟩).trans (exec_keeps hi)

/-- Settles O55: `par` is the first of the two things that `step_keeps` says every step keeps. -/
theorem stepKeepsTheParameters : Obligations.StepKeepsTheParameters := fun _ _ h => (step_keeps h).par

end Sys2Proof.Machine

/-! The decoder and the fetch read the same instruction. The opcode matrix of R95 has at each opcode an instruction whose encoding
begins with that opcode, so the encoding of what decodes is the bytes that were read, and a fetch of these bytes from plain memory
gives the same instruction and changes nothing. -/

namespace Sys2Proof

/-- Each instruction of the cell is encoded as the opcode `op` and the operand bytes of the cell's format (R70). -/
def Cell.EncodesAs (op : Byte) (c : Cell) : Prop :=
  ∀ (b : Byte) (a : Word), match c with
    | .f1 i => encode i = bytes1 op
    | .f2 mk => encode (mk b) = bytes2 op b
    | .f3 mk => encode (mk a) = bytes3 op a
    | .future => encode (.reserved op) = bytes1 op

/-- The matrix of R95, cell by cell, against the encodings of the instruction rules. -/
theorem opcodeRow_encodesAs (hasRor : Bool) (hi lo : Nat) (hhi : hi < 16) (hlo : lo < 16) :
    ((opcodeRow hasRor hi).getD lo .future).EncodesAs (BitVec.ofNat 8 (hi * 16 + lo)) := by
  cases hasRor <;> interval_cases hi <;> interval_cases lo <;> exact fun _ _ => rfl

theorem cellOf_encodesAs (hasRor : Bool) (op : Byte) : (cellOf hasRor op).EncodesAs op := by
  have hop : BitVec.ofNat 8 (op.toNat / 16 * 16 + op.toNat % 16) = op := by
    rw [Nat.div_add_mod', BitVec.ofNat_toNat, BitVec.setWidth_eq]
  have hrow := opcodeRow_encodesAs hasRor (op.toNat / 16) (op.toNat % 16) (by omega) (by omega)
  rwa [hop] at hrow

/-- All that decoding can answer: an instruction of the opcode's cell, with the operand bytes of the cell's format taken from
the bytes that follow; the encoding is what was read. -/
theorem decode_cases {hasRor : Bool} {op : Byte} {bytes rest : List Byte} {i : Instr}
    (h : decode hasRor (op :: bytes) = .ok (i, rest)) :
    (cellOf hasRor op = .f1 i ∧ bytes = rest ∧ encode i = [op]) ∨
      (∃ mk b1, cellOf hasRor op = .f2 mk ∧ i = mk b1 ∧ bytes = b1 :: rest ∧ encode i = [op, b1]) ∨
      (∃ mk b1 b2, cellOf hasRor op = .f3 mk ∧ i = mk (wordOf b2 b1) ∧ bytes = b1 :: b2 :: rest ∧
        encode i = [op, b1, b2]) ∨
      (cellOf hasRor op = .future ∧ i = .reserved op ∧ bytes = rest ∧ encode i = [op]) := by
  have henc := cellOf_encodesAs hasRor op
  unfold decode at h
  cases hcell : cellOf hasRor op with (rw [hcell] at henc; simp only [hcell] at h)
  | f1 j =>
    cases h
    exact .inl ⟨rfl, rfl, henc 0 0⟩
  | f2 mk =>
    cases bytes with
    | nil => cases h
    | cons b1 bytes =>
      cases h
      exact .inr (.inl ⟨mk, b1, rfl, rfl, rfl, henc b1 0⟩)
  | f3 mk =>
    match bytes, h with
    | b1 :: b2 :: bytes, h =>
      cases h
      have hbytes : encode (mk (wordOf b2 b1)) = [op, b1, b2] := by
        simpa only [bytes3, loByte_wordOf, hiByte_wordOf] using henc 0 (wordOf b2 b1)
      exact .inr (.inr (.inl ⟨mk, b1, b2, rfl, rfl, rfl, hbytes⟩))
  | future =>
    cases h
    exact .inr (.inr (.inr ⟨rfl, rfl, rfl, henc 0 0⟩))

end Sys2Proof

namespace Sys2Proof.Machine

/-- The bytes of an instruction at PC are plain memory: mapped, and no device. -/
def State.PlainAtPc (s : State) (i : Instr) : Prop :=
  ∀ k : Nat, k < (encode i).length →
    s.isIo (s.pc + BitVec.ofNat 16 k) = false ∧ s.kindAt (s.pc + BitVec.ofNat 16 k) ≠ .unmapped

theorem readByte_of_plainAtPc {s : State} {i : Instr} (hp : s.PlainAtPc i) {k : Nat} (hk : k < (encode i).length) :
    readByte (s.pc + BitVec.ofNat 16 k) s = .ok (s.mem.read (s.pc + BitVec.ofNat 16 k).toNat, s) :=
  have ⟨hio, hkind⟩ := hp k hk
  readByte_plain hio hkind

/-! What a fetch does at each kind of cell, once its reads have answered. -/

theorem fetchInstr_f1 {s t : State} {op : Byte} {i : Instr} (h0 : readByte s.pc s = .ok (op, t))
    (hc : cellOf t.par.hasRor op = .f1 i) : fetchInstr s = .ok (i, t) := by
  refine bind_ok.mpr ⟨_, h0, ?_⟩
  simp only [hc, pure_ok]

theorem fetchInstr_f2 {s t u : State} {op b1 : Byte} {mk : Byte → Instr} (h0 : readByte s.pc s = .ok (op, t))
    (hc : cellOf t.par.hasRor op = .f2 mk) (h1 : readByte (s.pc + 1) t = .ok (b1, u)) :
    fetchInstr s = .ok (mk b1, u) := by
  refine bind_ok.mpr ⟨_, h0, ?_⟩
  simp only [hc]
  exact bind_ok.mpr ⟨_, h1, rfl⟩

theorem fetchInstr_f3 {s t u v : State} {op b1 b2 : Byte} {mk : Word → Instr} (h0 : readByte s.pc s = .ok (op, t))
    (hc : cellOf t.par.hasRor op = .f3 mk) (h1 : readByte (s.pc + 1) t = .ok (b1, u))
    (h2 : readByte (s.pc + 2) u = .ok (b2, v)) : fetchInstr s = .ok (mk (wordOf b2 b1), v) := by
  refine bind_ok.mpr ⟨_, h0, ?_⟩
  simp only [hc]
  exact bind_ok.mpr ⟨_, h1, bind_ok.mpr ⟨_, h2, rfl⟩⟩

theorem fetchInstr_future {s t : State} {op : Byte} (h0 : readByte s.pc s = .ok (op, t))
    (hc : cellOf t.par.hasRor op = .future) : fetchInstr s = .ok (.reserved op, t) := by
  refine bind_ok.mpr ⟨_, h0, ?_⟩
  simp only [hc, pure_ok]

/-- Fetching an instruction that is wholly in plain memory gives what its bytes decode to, and changes nothing. -/
theorem fetchInstr_of_decode {s : State} {i : Instr} {rest : List Byte} (hp : s.PlainAtPc i)
    (hd : decode s.par.hasRor
      [s.mem.read s.pc.toNat, s.mem.read (s.pc + 1).toNat, s.mem.read (s.pc + 2).toNat] = .ok (i, rest)) :
    fetchInstr s = .ok (i, s) := by
  have h0 (h : 0 < (encode i).length) : readByte s.pc s = .ok (s.mem.read s.pc.toNat, s) := by
    simpa using readByte_of_plainAtPc hp h
  have h1 (h : 1 < (encode i).length) := readByte_of_plainAtPc hp h
  have h2 (h : 2 < (encode i).length) := readByte_of_plainAtPc hp h
  obtain ⟨hc, -, henc⟩ | ⟨mk, b1, hc, rfl, hb, henc⟩ | ⟨mk, b1, b2, hc, rfl, hb, henc⟩ | ⟨hc, rfl, -, henc⟩ :=
    decode_cases hd
  all_goals
    have hlen := congrArg List.length henc
    simp only [List.length_cons, List.length_nil] at hlen
  · exact fetchInstr_f1 (h0 (by omega)) hc
  · cases hb
    exact fetchInstr_f2 (h0 (by omega)) hc (h1 (by omega))
  · cases hb
    exact fetchInstr_f3 (h0 (by omega)) hc (h1 (by omega)) (h2 (by omega))
  · exact fetchInstr_future (h0 (by omega)) hc

/-- Settles O49: the step runs what it fetches, and the fetch from plain memory is the decoding of the bytes at PC. -/
theorem stepRunsTheDecodedInstruction : Obligations.StepRunsTheDecodedInstruction := by
  rintro s u i rest rfl hq hp hd
  exact step_of_fetch hq (fetchInstr_of_decode hp hd)

end Sys2Proof.Machine

/-! The memory form and the reset state; the status byte as a number and bit by bit, `SetP` and `SetNZ` (R22 to R24). -/

namespace Sys2Proof.Machine

/-- Settles O53: the canonical form of memory is the second of the two things that `step_keeps` says every step keeps. -/
theorem stepKeepsTheMemoryForm : Obligations.StepKeepsTheMemoryForm := fun _ _ hs h => (step_keeps h).wf hs

/-- Settles O54: `State.reset` has each value written in it, and both reads of its empty memory answer zero. -/
theorem resetState : Obligations.ResetState :=
  ⟨Memory.wf_nil, rfl, rfl, ⟨0, rfl, rfl⟩, rfl, rfl, rfl, rfl, rfl, rfl, rfl, rfl, rfl, rfl⟩

/-- N is bit 7 of the result and Z says whether it is zero (R24). -/
theorem Status.setNZ_eq (p : Status) (r : Byte) :
    p.setNZ r = { p with n := r.getLsbD 7, z := decide (r.toNat % 256 = 0) } := by
  have hn : r.msb = r.getLsbD 7 := BitVec.msb_eq_getLsbD_last r
  have hz : (r == 0) = decide (r.toNat % 256 = 0) := by
    rw [Nat.mod_eq_of_lt r.isLt, Bool.eq_iff_iff, beq_iff_eq, decide_eq_true_iff, BitVec.toNat_eq]
    rfl
  rw [Status.setNZ, hn, hz]

/-- Bit 7 of zero is 0 (R24). -/
theorem Status.setNZ_not_both (p : Status) (r : Byte) : ¬ ((p.setNZ r).n = true ∧ (p.setNZ r).z = true) := by
  rintro ⟨hn, hz⟩
  rw [Status.setNZ_z, beq_iff_eq] at hz
  rw [Status.setNZ_n, hz] at hn
  exact absurd hn (by decide)

/-- Settles O6: the two fields that SetNZ writes, and that the zero byte has bit 7 clear. -/
theorem setNzRule : Obligations.SetNzRule := fun p r => ⟨p.setNZ_eq r, p.setNZ_not_both r⟩

/-- Settles O8: `SetP` is its definition field by field, and undoes `GetP` bit by bit (`Status.ofByte_toByte`). -/
theorem setPRule : Obligations.SetPRule := ⟨fun _ _ => rfl, fun _ _ => rfl, Status.ofByte_toByte⟩

/-- The status byte, bit by bit from bit 7 down (R22). -/
theorem Status.toByte_toNat (p : Status) : p.toByte.toNat = p.n.toNat * 128 + p.v.toNat * 64 + 32 + p.b.toNat * 16 +
    p.d.toNat * 8 + p.i.toNat * 4 + p.z.toNat * 2 + p.c.toNat := by
  have append (n : Nat) (w : BitVec n) (b : Bool) : (w ++ BitVec.ofBool b).toNat = w.toNat * 2 + b.toNat := by
    rw [BitVec.toNat_append, BitVec.toNat_ofBool, ← Nat.shiftLeft_add_eq_or_of_lt b.toNat_lt, Nat.shiftLeft_eq]
  have bit5 : (1#1 : BitVec 1) = BitVec.ofBool true := rfl
  simp only [Status.toByte, bit5, append, BitVec.toNat_ofBool, Bool.toNat_true]
  omega

theorem Status.toByte_or_bit4 (p : Status) : p.toByte ||| 0x10 = { p with b := true }.toByte := by
  have old := p.toByte_bits
  have new := { p with b := true }.toByte_bits
  refine BitVec.eq_of_getLsbD_eq fun k hk => ?_
  rw [BitVec.getLsbD_or]
  interval_cases k <;> simp only [old, new] <;> simp

theorem Status.toByte_and_bit4 (p : Status) : p.toByte &&& 0xEF = { p with b := false }.toByte := by
  have old := p.toByte_bits
  have new := { p with b := false }.toByte_bits
  refine BitVec.eq_of_getLsbD_eq fun k hk => ?_
  rw [BitVec.getLsbD_and]
  interval_cases k <;> simp only [old, new] <;> simp

/-- Settles O7: PHP and the entries set or clear bit 4 of the status byte, which is the byte with B set or clear. -/
theorem statusByteRule : Obligations.StatusByteRule :=
  ⟨Status.toByte_toNat, fun p =>
    ⟨rfl, p.toByte_or_bit4, p.toByte_or_bit4, p.toByte_and_bit4, p.toByte_and_bit4⟩⟩

end Sys2Proof.Machine

/-! What each instruction may write: once as a table (`writeSet`), which `exec_writes` ties to `exec`, and from it the lists of
R11 to R13, R16 and R20 to R30. The same table says which instructions may leave PC anywhere but past their own bytes (R15). -/

namespace Sys2Proof.Machine

/-- The registers and flags an instruction may write, N and Z together (R24); whether it may store; and whether it may leave PC
anywhere but past its own bytes. -/
structure WriteSet where
  a : Bool := false
  x : Bool := false
  y : Bool := false
  sp : Bool := false
  nz : Bool := false
  v : Bool := false
  b : Bool := false
  d : Bool := false
  i : Bool := false
  c : Bool := false
  mem : Bool := false
  jump : Bool := false

/-- `s` with what the set names, and the count of free values, taken from `t`, and PC past `length` bytes. -/
def WriteSet.update (w : WriteSet) (length : Word) (s t : State) : State :=
  { s with
    a := bif w.a then t.a else s.a
    x := bif w.x then t.x else s.x
    y := bif w.y then t.y else s.y
    sp := bif w.sp then t.sp else s.sp
    pc := bif w.jump then t.pc else s.pc + length
    p := {
      n := bif w.nz then t.p.n else s.p.n
      v := bif w.v then t.p.v else s.p.v
      b := bif w.b then t.p.b else s.p.b
      d := bif w.d then t.p.d else s.p.d
      i := bif w.i then t.p.i else s.p.i
      z := bif w.nz then t.p.z else s.p.z
      c := bif w.c then t.p.c else s.p.c }
    mem := bif w.mem then t.mem else s.mem
    draws := t.draws }

/-- What each instruction may write. -/
def writeSet (i : Instr) : WriteSet :=
  match i with
  | .ldaImm _ | .ldaZp _ | .ldaZpx _ | .ldaAbs _ | .ldaAbx _ | .ldaAby _ | .ldaIzx _ | .ldaIzy _
  | .andImm _ | .andZp _ | .andZpx _ | .andAbs _ | .andAbx _ | .andAby _ | .andIzx _ | .andIzy _
  | .eorImm _ | .eorZp _ | .eorZpx _ | .eorAbs _ | .eorAbx _ | .eorAby _ | .eorIzx _ | .eorIzy _
  | .oraImm _ | .oraZp _ | .oraZpx _ | .oraAbs _ | .oraAbx _ | .oraAby _ | .oraIzx _ | .oraIzy _
  | .txa | .tya => { a := true, nz := true }
  | .ldxImm _ | .ldxZp _ | .ldxZpy _ | .ldxAbs _ | .ldxAby _ | .tax | .tsx | .inx | .dex => { x := true, nz := true }
  | .ldyImm _ | .ldyZp _ | .ldyZpx _ | .ldyAbs _ | .ldyAbx _ | .tay | .iny | .dey => { y := true, nz := true }
  | .adcImm _ | .adcZp _ | .adcZpx _ | .adcAbs _ | .adcAbx _ | .adcAby _ | .adcIzx _ | .adcIzy _
  | .sbcImm _ | .sbcZp _ | .sbcZpx _ | .sbcAbs _ | .sbcAbx _ | .sbcAby _ | .sbcIzx _ | .sbcIzy _ =>
    { a := true, nz := true, v := true, c := true }
  | .cmpImm _ | .cmpZp _ | .cmpZpx _ | .cmpAbs _ | .cmpAbx _ | .cmpAby _ | .cmpIzx _ | .cmpIzy _
  | .cpxImm _ | .cpxZp _ | .cpxAbs _ | .cpyImm _ | .cpyZp _ | .cpyAbs _ => { nz := true, c := true }
  | .bitZp _ | .bitAbs _ => { nz := true, v := true }
  | .staZp _ | .staZpx _ | .staAbs _ | .staAbx _ | .staAby _ | .staIzx _ | .staIzy _
  | .stxZp _ | .stxZpy _ | .stxAbs _ | .styZp _ | .styZpx _ | .styAbs _ => { mem := true }
  | .aslAcc | .lsrAcc | .rolAcc | .rorAcc => { a := true, nz := true, c := true }
  | .aslZp _ | .aslZpx _ | .aslAbs _ | .aslAbx _ | .lsrZp _ | .lsrZpx _ | .lsrAbs _ | .lsrAbx _
  | .rolZp _ | .rolZpx _ | .rolAbs _ | .rolAbx _ | .rorZp _ | .rorZpx _ | .rorAbs _ | .rorAbx _ =>
    { nz := true, c := true, mem := true }
  | .incZp _ | .incZpx _ | .incAbs _ | .incAbx _ | .decZp _ | .decZpx _ | .decAbs _ | .decAbx _ =>
    { nz := true, mem := true }
  | .pha | .php => { sp := true, mem := true }
  | .pla => { a := true, sp := true, nz := true }
  | .plp => { sp := true, nz := true, v := true, b := true, d := true, i := true, c := true }
  | .txs => { sp := true }
  | .clc | .sec => { c := true }
  | .cld | .sed => { d := true }
  | .cli | .sei => { i := true }
  | .clv => { v := true }
  | .nop | .reserved _ => {}
  | .bcc _ | .bcs _ | .beq _ | .bmi _ | .bne _ | .bpl _ | .bvc _ | .bvs _ | .jmpAbs _ | .jmpInd _ => { jump := true }
  | .jsr _ => { sp := true, mem := true, jump := true }
  | .rts => { sp := true, jump := true }
  | .brk => { sp := true, b := true, i := true, mem := true, jump := true }
  | .rti => { sp := true, nz := true, v := true, b := true, d := true, i := true, c := true, jump := true }

/-- `t` differs from `s` in nothing but what the set names and the count of free values, and in PC, which is past `length` bytes
where the set does not name it. -/
def WritesAtMost (w : WriteSet) (length : Word) (s t : State) : Prop := t = w.update length s t

section
variable {w : WriteSet} {f : ReadForm} {m : MemForm} {s t : State}

/-! The shapes: an instruction of the shape writes what its update of the state after the operand's reads does. -/

theorem runRead_writes {update : Byte → State → State} (h : runRead update f s = .next t)
    (hu : ∀ v n, WritesAtMost w f.length s ((update v (s.setDraws n)).advance f.length)) :
    WritesAtMost w f.length s t := by
  obtain ⟨v, u, hop, rfl⟩ := runRead_next.mp h
  obtain ⟨n, rfl⟩ := operand_frame hop
  exact hu v n

theorem runStore_writes {v : Byte} (h : runStore v m s = .next t) : WritesAtMost { mem := true } m.length s t := by
  obtain ⟨ea, u, w, hea, hw, rfl⟩ := runStore_next.mp h
  obtain ⟨n, rfl⟩ := effectiveAddress_frame hea
  obtain ⟨mem, rfl⟩ := writeByte_frame hw
  exact rfl

theorem runModifyMemory_writes {compute : Byte → Status → Byte × Status} (h : runModifyMemory compute m s = .next t)
    (hu : ∀ v n mem,
      WritesAtMost w m.length s ((((s.setDraws n).setP (compute v s.p).2).setMem mem).advance m.length)) :
    WritesAtMost w m.length s t := by
  obtain ⟨ea, u, v, u₂, u₃, hea, hr, hw, rfl⟩ := runModifyMemory_next.mp h
  obtain ⟨_, rfl⟩ := effectiveAddress_frame hea
  obtain ⟨n, rfl⟩ := readByte_frame hr
  obtain ⟨mem, rfl⟩ := writeByte_frame hw
  exact hu v n mem

theorem runPush_writes {v : Byte} (h : runPush v s = .next t) : WritesAtMost { sp := true, mem := true } 1 s t := by
  obtain ⟨u, hp, rfl⟩ := runPush_next.mp h
  obtain ⟨mem, rfl⟩ := push_frame hp
  exact rfl

theorem runPull_writes {update : Byte → State → State} (h : runPull update s = .next t)
    (hu : ∀ v n, WritesAtMost w 1 s ((update v ((s.setSp (s.sp + 1)).setDraws n)).advance 1)) : WritesAtMost w 1 s t := by
  obtain ⟨v, u, hp, rfl⟩ := runPull_next.mp h
  obtain ⟨n, rfl⟩ := pull_frame hp
  exact hu v n

/-! The operations with several operand forms. -/

theorem lda_writes (h : lda f s = .next t) : WritesAtMost { a := true, nz := true } f.length s t :=
  runRead_writes h fun _ _ => rfl

theorem ldx_writes (h : ldx f s = .next t) : WritesAtMost { x := true, nz := true } f.length s t :=
  runRead_writes h fun _ _ => rfl

theorem ldy_writes (h : ldy f s = .next t) : WritesAtMost { y := true, nz := true } f.length s t :=
  runRead_writes h fun _ _ => rfl

theorem andA_writes (h : andA f s = .next t) : WritesAtMost { a := true, nz := true } f.length s t :=
  runRead_writes h fun _ _ => rfl

theorem eorA_writes (h : eorA f s = .next t) : WritesAtMost { a := true, nz := true } f.length s t :=
  runRead_writes h fun _ _ => rfl

theorem oraA_writes (h : oraA f s = .next t) : WritesAtMost { a := true, nz := true } f.length s t :=
  runRead_writes h fun _ _ => rfl

theorem cmp_writes (h : cmp f s = .next t) : WritesAtMost { nz := true, c := true } f.length s t :=
  runRead_writes h fun _ _ => rfl

theorem cpx_writes (h : cpx f s = .next t) : WritesAtMost { nz := true, c := true } f.length s t :=
  runRead_writes h fun _ _ => rfl

theorem cpy_writes (h : cpy f s = .next t) : WritesAtMost { nz := true, c := true } f.length s t :=
  runRead_writes h fun _ _ => rfl

theorem bitTest_writes (h : bitTest m s = .next t) : WritesAtMost { nz := true, v := true } m.length s t :=
  runRead_writes (f := .mem m) h fun _ _ => rfl

/-- The end of an ADC or SBC writes A and the four flags of one result, that of `settleDecimal`, and the count of free values. -/
theorem writeAlu_eq (v : Byte) (r : AluResult) (s : State) :
    ∃ n q, writeAlu v r s = ((s.setDraws n).setP (s.p.setAlu q)).setA q.value := by
  unfold writeAlu settleDecimal
  split_ifs
  · exact ⟨_, _, rfl⟩
  · exact ⟨_, _, rfl⟩
  · exact ⟨s.draws, r, rfl⟩

theorem writeAlu_writes (v : Byte) (r : AluResult) (n : Nat) :
    WritesAtMost { a := true, nz := true, v := true, c := true } f.length s
      ((writeAlu v r (s.setDraws n)).advance f.length) := by
  obtain ⟨k, q, h⟩ := writeAlu_eq v r (s.setDraws n)
  rw [h]
  exact rfl

theorem adc_writes (h : adc f s = .next t) :
    WritesAtMost { a := true, nz := true, v := true, c := true } f.length s t :=
  runRead_writes h fun v n => writeAlu_writes v _ n

theorem sbc_writes (h : sbc f s = .next t) :
    WritesAtMost { a := true, nz := true, v := true, c := true } f.length s t :=
  runRead_writes h fun v n => writeAlu_writes v _ n

theorem shiftWith_writes {shift : Byte → Bool → Byte × Bool} (h : runModifyMemory (shiftWith shift) m s = .next t) :
    WritesAtMost { nz := true, c := true, mem := true } m.length s t :=
  runModifyMemory_writes h fun _ _ _ => rfl

theorem inc_writes (h : inc m s = .next t) : WritesAtMost { nz := true, mem := true } m.length s t :=
  runModifyMemory_writes h fun _ _ _ => rfl

theorem dec_writes (h : dec m s = .next t) : WritesAtMost { nz := true, mem := true } m.length s t :=
  runModifyMemory_writes h fun _ _ _ => rfl

/-! The instructions with a meaning of their own. -/

theorem execJmpInd_writes {a l : Word} (h : execJmpInd a s = .next t) : WritesAtMost { jump := true } l s t := by
  obtain ⟨⟨target, u⟩, hi, h⟩ := bind_ok.mp (outcome_next.mp h)
  obtain ⟨n, rfl⟩ := indirectTarget_frame hi
  cases pure_ok.mp h
  exact rfl

theorem push_push_frame {v₁ v₂ : Byte} {u : State} (h₁ : push v₁ s = .ok u) (h₂ : push v₂ u = .ok t) :
    ∃ mem, t = (s.setMem mem).setSp (s.sp - 1 - 1) := by
  obtain ⟨_, rfl⟩ := push_frame h₁
  obtain ⟨mem, rfl⟩ := push_frame h₂
  exact ⟨mem, rfl⟩

theorem pull_pull_frame {v₁ v₂ : Byte} {u : State} (h₁ : pull s = .ok (v₁, u)) (h₂ : pull u = .ok (v₂, t)) :
    ∃ n, t = (s.setSp (s.sp + 1 + 1)).setDraws n := by
  obtain ⟨_, rfl⟩ := pull_frame h₁
  obtain ⟨n, rfl⟩ := pull_frame h₂
  exact ⟨n, rfl⟩

theorem execJsr_writes {a l : Word} (h : execJsr a s = .next t) :
    WritesAtMost { sp := true, mem := true, jump := true } l s t := by
  have h := outcome_next.mp h
  dsimp only at h
  split at h
  · cases h
  · obtain ⟨u, hhi, h⟩ := bind_ok.mp h
    obtain ⟨_, hlo, h⟩ := bind_ok.mp h
    obtain ⟨mem, rfl⟩ := push_push_frame hhi hlo
    cases pure_ok.mp h
    exact rfl

theorem execRts_writes {l : Word} (h : execRts s = .next t) : WritesAtMost { sp := true, jump := true } l s t := by
  obtain ⟨⟨lo, u⟩, hlo, h⟩ := bind_ok.mp (outcome_next.mp h)
  obtain ⟨⟨hi, _⟩, hhi, h⟩ := bind_ok.mp h
  obtain ⟨n, rfl⟩ := pull_pull_frame hlo hhi
  cases pure_ok.mp h
  exact rfl

theorem execBrk_writes {l : Word} (h : execBrk s = .next t) :
    WritesAtMost { sp := true, b := true, i := true, mem := true, jump := true } l s t := by
  obtain ⟨target, n, mem, rfl⟩ := takeInterrupt_cases (outcome_next.mp h)
  cases s.par.bFlagModel with
  | latched => exact rfl
  | pushOnly => exact rfl

theorem execRti_writes {l : Word} (h : execRti s = .next t) :
    WritesAtMost { sp := true, nz := true, v := true, b := true, d := true, i := true, c := true, jump := true } l s t := by
  obtain ⟨v, target, n, rfl⟩ := returnFromInterrupt_cases (outcome_next.mp h)
  exact rfl

/-- An instruction that completes writes at most what `writeSet` names, and leaves PC past its own bytes (R71) unless that names
PC. Each operation's lemma is elaborated without the goal, `( :)`, so that the operand form comes from the hypothesis and the row
of the table is only compared with it. -/
theorem exec_writes {i : Instr} (h : exec i s = .next t) :
    WritesAtMost (writeSet i) (BitVec.ofNat 16 (encode i).length) s t := by
  unfold exec at h
  cases i with dsimp only at h
  | ldaImm | ldaZp | ldaZpx | ldaAbs | ldaAbx | ldaAby | ldaIzx | ldaIzy => exact (lda_writes h :)
  | ldxImm | ldxZp | ldxZpy | ldxAbs | ldxAby => exact (ldx_writes h :)
  | ldyImm | ldyZp | ldyZpx | ldyAbs | ldyAbx => exact (ldy_writes h :)
  | andImm | andZp | andZpx | andAbs | andAbx | andAby | andIzx | andIzy => exact (andA_writes h :)
  | eorImm | eorZp | eorZpx | eorAbs | eorAbx | eorAby | eorIzx | eorIzy => exact (eorA_writes h :)
  | oraImm | oraZp | oraZpx | oraAbs | oraAbx | oraAby | oraIzx | oraIzy => exact (oraA_writes h :)
  | cmpImm | cmpZp | cmpZpx | cmpAbs | cmpAbx | cmpAby | cmpIzx | cmpIzy => exact (cmp_writes h :)
  | cpxImm | cpxZp | cpxAbs => exact (cpx_writes h :)
  | cpyImm | cpyZp | cpyAbs => exact (cpy_writes h :)
  | bitZp | bitAbs => exact (bitTest_writes h :)
  | adcImm | adcZp | adcZpx | adcAbs | adcAbx | adcAby | adcIzx | adcIzy => exact (adc_writes h :)
  | sbcImm | sbcZp | sbcZpx | sbcAbs | sbcAbx | sbcAby | sbcIzx | sbcIzy => exact (sbc_writes h :)
  | staZp | staZpx | staAbs | staAbx | staAby | staIzx | staIzy => exact (runStore_writes (show sta _ s = _ from h) :)
  | stxZp | stxZpy | stxAbs => exact (runStore_writes (show stx _ s = _ from h) :)
  | styZp | styZpx | styAbs => exact (runStore_writes (show sty _ s = _ from h) :)
  | aslZp | aslZpx | aslAbs | aslAbx => exact (shiftWith_writes (show asl (.mem _) s = _ from h) :)
  | lsrZp | lsrZpx | lsrAbs | lsrAbx => exact (shiftWith_writes (show lsr (.mem _) s = _ from h) :)
  | rolZp | rolZpx | rolAbs | rolAbx => exact (shiftWith_writes (show rol (.mem _) s = _ from h) :)
  | rorZp | rorZpx | rorAbs | rorAbx => exact (shiftWith_writes (show ror (.mem _) s = _ from h) :)
  | incZp | incZpx | incAbs | incAbx => exact (inc_writes h :)
  | decZp | decZpx | decAbs | decAbx => exact (dec_writes h :)
  | pha | php => exact runPush_writes h
  | pla | plp => exact runPull_writes h fun _ _ => rfl
  | aslAcc | lsrAcc | rolAcc | rorAcc | tax | tay | tsx | txa | txs | tya | inx | iny | dex | dey | clc | cld | cli | clv
  | sec | sed | sei | nop | bcc | bcs | beq | bmi | bne | bpl | bvc | bvs | jmpAbs =>
    cases h
    exact rfl
  | jmpInd => exact execJmpInd_writes h
  | jsr => exact execJsr_writes h
  | rts => exact execRts_writes h
  | brk => exact execBrk_writes h
  | rti => exact execRti_writes h
  | reserved => cases h

end

/-! The rows of `writeSet` against the lists of the rules: a finite table, compared row by row. -/

theorem writeSet_registers (i : Instr) :
    ((writeSet i).a = true → mnemonic i ∈ ["ADC", "AND", "EOR", "LDA", "ORA", "PLA", "SBC", "TXA", "TYA"] ∨
        (mnemonic i ∈ ["ASL", "LSR", "ROL", "ROR"] ∧ formOf i = some .acc)) ∧
      ((writeSet i).x = true → mnemonic i ∈ ["DEX", "INX", "LDX", "TAX", "TSX"]) ∧
      ((writeSet i).y = true → mnemonic i ∈ ["DEY", "INY", "LDY", "TAY"]) ∧
      ((writeSet i).sp = true → mnemonic i ∈ ["TXS", "PHA", "PHP", "PLA", "PLP", "JSR", "RTS", "BRK", "RTI"]) := by
  cases i <;> simp [writeSet, mnemonic, formOf]

theorem writeSet_flags (i : Instr) :
    ((writeSet i).c = true →
        mnemonic i ∈ ["ADC", "SBC", "CMP", "CPX", "CPY", "ASL", "LSR", "ROL", "ROR", "CLC", "SEC", "PLP", "RTI"]) ∧
      ((writeSet i).v = true → mnemonic i ∈ ["ADC", "SBC", "BIT", "CLV", "PLP", "RTI"]) ∧
      ((writeSet i).d = true → mnemonic i ∈ ["CLD", "SED", "PLP", "RTI"]) ∧
      ((writeSet i).i = true → mnemonic i ∈ ["CLI", "SEI", "BRK", "PLP", "RTI"]) ∧
      ((writeSet i).b = true → mnemonic i ∈ ["BRK", "PLP", "RTI"]) ∧
      ((writeSet i).nz = true → mnemonic i ∈ ["ADC", "SBC", "AND", "EOR", "ORA", "LDA", "LDX", "LDY", "PLA", "TAX",
        "TAY", "TSX", "TXA", "TYA", "INC", "INX", "INY", "DEC", "DEX", "DEY", "ASL", "LSR", "ROL", "ROR", "CMP", "CPX", "CPY",
        "BIT", "PLP", "RTI"]) := by
  cases i <;> simp [writeSet, mnemonic]

/-- A field that has changed is one the set names. -/
theorem eq_true_of_cond_ne {α : Type} {w : Bool} {new old : α} (h : new = bif w then new else old) (hne : new ≠ old) :
    w = true := by
  cases w with
  | true => rfl
  | false => exact absurd h hne

/-- Settles O56: a register that changed is in the row of the instruction, and the row is in the rule's list; no row names an
input line, the schedule or a parameter. -/
theorem registerWriters : Obligations.RegisterWriters := by
  intro i s t h
  have hw : t = _ := exec_writes h
  obtain ⟨ha, hx, hy, hsp⟩ := writeSet_registers i
  exact ⟨fun hne => ha (eq_true_of_cond_ne (congrArg State.a hw) hne),
    fun hne => hx (eq_true_of_cond_ne (congrArg State.x hw) hne),
    fun hne => hy (eq_true_of_cond_ne (congrArg State.y hw) hne),
    fun hne => hsp (eq_true_of_cond_ne (congrArg State.sp hw) hne),
    (congrArg State.irq hw :), (congrArg State.nmiPending hw :), (congrArg State.resetLine hw :),
    (congrArg State.inputs hw :), (congrArg State.par hw :)⟩

/-- Settles O57: a flag that changed is in the row of the instruction, and the row is in the rule's list. -/
theorem flagWriters : Obligations.FlagWriters := by
  intro i s t h
  have hw : t.p = _ := congrArg State.p (exec_writes h)
  obtain ⟨hc, hv, hd, hi, hb, hnz⟩ := writeSet_flags i
  refine ⟨fun hne => hc (eq_true_of_cond_ne (congrArg Status.c hw) hne),
    fun hne => hv (eq_true_of_cond_ne (congrArg Status.v hw) hne),
    fun hne => hd (eq_true_of_cond_ne (congrArg Status.d hw) hne),
    fun hne => hi (eq_true_of_cond_ne (congrArg Status.i hw) hne),
    fun hne => hb (eq_true_of_cond_ne (congrArg Status.b hw) hne), ?_⟩
  rintro (hne | hne)
  · exact hnz (eq_true_of_cond_ne (congrArg Status.n hw) hne)
  · exact hnz (eq_true_of_cond_ne (congrArg Status.z hw) hne)

/-! PC. -/

/-- An instruction whose row does not name PC leaves it past its own bytes. -/
theorem exec_pc {i : Instr} {s t : State} (h : exec i s = .next t) (hj : (writeSet i).jump = false) :
    t.pc = s.pc + BitVec.ofNat 16 (encode i).length := by
  have hw : t.pc = bif (writeSet i).jump then t.pc else _ := congrArg State.pc (exec_writes h)
  rwa [hj] at hw

/-- A branch goes on past its two bytes or to its target (R195). -/
theorem runBranch_pc {taken : Bool} {b : Byte} {s t : State} (h : runBranch taken b s = .next t) :
    t.pc = s.pc + 2 ∨ t.pc = branchTarget s.par.relOffset s.pc b := by
  cases h
  cases taken with
  | false => exact .inl rfl
  | true => exact .inr rfl

/-- Settles O59: the branches go to their target or past their two bytes, the jumps are excluded, and no other row names PC. -/
theorem pcAdvancesPastTheInstruction : Obligations.PcAdvancesPastTheInstruction := by
  intro i s t h hm
  cases i with
  | bcc b | bcs b | beq b | bmi b | bne b | bpl b | bvc b | bvs b =>
    exact (runBranch_pc h).imp id fun hpc => ⟨rfl, b, hpc, rfl⟩
  | jmpAbs | jmpInd | jsr | rts | rti | brk => simp [mnemonic] at hm
  | _ => exact .inl (exec_pc h rfl)

end Sys2Proof.Machine

/-! Memory and the stack (R41 to R47, R50, R54, R57, R59): one rule for each access, push and pull, and what the stack instructions,
JSR and a store to code make of them. -/

namespace Sys2Proof.Machine

/-! Accesses. -/

theorem readByte_io {a : Word} {s : State} (hio : s.isIo a = true) : readByte a s = .error (.ioRegion a) := if_pos hio

theorem writeByte_io {a : Word} {v : Byte} {s : State} (hio : s.isIo a = true) :
    writeByte a v s = .error (.ioRegion a) := if_pos hio

/-- A read of an unmapped address hands out the next free byte (R59). -/
theorem readByte_unmapped {a : Word} {s : State} (hio : s.isIo a = false) (hk : s.kindAt a = .unmapped) :
    readByte a s = .ok (Config.freeByte s.draws, s.setDraws (s.draws + 1)) := by
  unfold readByte
  rw [if_neg (by simp [hio]), hk]
  rfl

/-- A write where no device is, on every kind of memory: RAM then holds the byte, ROM and unmapped addresses drop it, and nothing
else changes (R41, R54, R59). -/
theorem writeByte_result {a : Word} {s : State} (v : Byte) (hio : s.isIo a = false) :
    ∃ m, writeByte a v s = .ok (s.setMem m) ∧ (s.kindAt a = .ram → m.read a.toNat = v) ∧
      (s.kindAt a ≠ .ram → m = s.mem) ∧ ∀ c, c ≠ a.toNat → m.read c = s.mem.read c := by
  obtain ⟨t, h⟩ := (writeByte_answers a v s).mpr hio
  obtain ⟨-, ⟨hk, rfl⟩ | ⟨hk, rfl⟩⟩ := writeByte_cases h
  · exact ⟨_, h, fun _ => Memory.read_write_same _ _ _, fun hn => absurd hk hn,
      fun c hc => Memory.read_write_other _ _ _ _ hc⟩
  · exact ⟨t.mem, h, fun hr => absurd hr hk, fun _ => rfl, fun _ _ => rfl⟩

/-- Settles O9: the accesses case by case, and after a write of RAM `readByte_plain` reads what `writeByte_result` left there. -/
theorem memoryAccesses : Obligations.MemoryAccesses := by
  intro a v s
  refine ⟨fun hio => ⟨readByte_io hio, writeByte_io hio⟩, readByte_plain, readByte_unmapped, fun hio hk => ?_,
    fun hio hk => ?_⟩
  · obtain ⟨m, hw, -, hm, -⟩ := writeByte_result v hio
    rw [hw, hm hk, State.setMem_self]
  · obtain ⟨m, hw, hsame, -, hother⟩ := writeByte_result v hio
    have hread := readByte_plain (s := s.setMem m) hio (by simp [hk])
    rw [State.setMem_mem, hsame hk] at hread
    exact ⟨_, hw, rfl, hread, hother⟩

/-! Addresses as numbers, and the 16-bit reads. -/

theorem zeroPage_toNat (z : Byte) : (zeroPage z).toNat = z.toNat := by
  rw [zeroPage, wordOf_toNat]
  exact Nat.zero_add _

theorem stackAddress_toNat (sp : Byte) : (stackAddress sp).toNat = 0x0100 + sp.toNat := wordOf_toNat _ _

theorem read16_of_reads {a : Word} {s s₁ s₂ : State} {lo hi : Byte} (hlo : readByte a s = .ok (lo, s₁))
    (hhi : readByte (a + 1) s₁ = .ok (hi, s₂)) : read16 a s = .ok (wordOf hi lo, s₂) :=
  bind_ok.mpr ⟨_, hlo, bind_ok.mpr ⟨_, hhi, rfl⟩⟩

theorem read16zp_of_reads {z : Byte} {s s₁ s₂ : State} {lo hi : Byte} (hlo : readByte (zeroPage z) s = .ok (lo, s₁))
    (hhi : readByte (zeroPage (z + 1)) s₁ = .ok (hi, s₂)) : read16zp z s = .ok (wordOf hi lo, s₂) :=
  bind_ok.mpr ⟨_, hlo, bind_ok.mpr ⟨_, hhi, rfl⟩⟩

/-- Settles O10: both 16-bit reads are their two byte reads in a row, and word and byte addition wrap where the rules say. -/
theorem sixteenBitReads : Obligations.SixteenBitReads := by
  refine ⟨fun a s s₁ s₂ lo hi hlo hhi => ⟨BitVec.toNat_add a 1, _, read16_of_reads hlo hhi, wordOf_toNat hi lo⟩,
    fun z s s₁ s₂ lo hi hlo hhi => ⟨zeroPage_toNat z, ?_, _, read16zp_of_reads hlo hhi, wordOf_toNat hi lo⟩⟩
  exact (zeroPage_toNat (z + 1)).trans (BitVec.toNat_add z 1)

/-! The stack. -/

theorem push_of_writeByte {v : Byte} {s u : State} (h : writeByte (stackAddress s.sp) v s = .ok u) :
    push v s = .ok (u.setSp (s.sp - 1)) := by
  obtain ⟨m, rfl⟩ := writeByte_frame h
  exact bind_ok.mpr ⟨_, h, rfl⟩

/-- A push where no device is, on every kind of memory: `writeByte_result` at the stack address, and SP one down (R46). -/
theorem push_result {s : State} (v : Byte) (hio : s.isIo (stackAddress s.sp) = false) :
    ∃ m, push v s = .ok ((s.setMem m).setSp (s.sp - 1)) ∧
      (s.kindAt (stackAddress s.sp) = .ram → m.read (stackAddress s.sp).toNat = v) ∧
      (s.kindAt (stackAddress s.sp) ≠ .ram → m = s.mem) ∧
      ∀ c, c ≠ (stackAddress s.sp).toNat → m.read c = s.mem.read c := by
  obtain ⟨m, hw, hrest⟩ := writeByte_result v hio
  exact ⟨m, push_of_writeByte hw, hrest⟩

theorem push_io {v : Byte} {s : State} (hio : s.isIo (stackAddress s.sp) = true) :
    push v s = .error (.ioRegion (stackAddress s.sp)) :=
  bind_error.mpr (.inl (writeByte_io hio))

/-- Settles O11: a push is the write and a pull the read at the stack address, and SP wraps as a byte. -/
theorem pushAndPullRules : Obligations.PushAndPullRules := by
  refine ⟨fun v s u hw => ⟨_, push_of_writeByte hw, rfl, ?_, stackAddress_toNat s.sp⟩, fun v s t hr => ⟨hr, ?_, ?_⟩⟩
  · show (s.sp - 1).toNat = _
    bv_omega
  · obtain ⟨n, rfl⟩ := readByte_frame hr
    exact BitVec.toNat_add s.sp 1
  · rw [stackAddress_toNat, BitVec.toNat_add]
    rfl

/-- Settles O12: the pull moves SP back and reads the byte that the push stored (`push_result`). -/
theorem pullAfterPush : Obligations.PullAfterPush := by
  intro v s hio hk
  obtain ⟨m, hpush, hsame, -, hother⟩ := push_result v hio
  have hsp : s.sp - 1 + 1 = s.sp := BitVec.sub_add_cancel s.sp 1
  have hpull : pull ((s.setMem m).setSp (s.sp - 1)) = .ok (v, s.setMem m) := by
    have hread := readByte_plain (s := s.setMem m) hio (by simp [hk])
    rw [State.setMem_mem, hsame hk] at hread
    simp only [pull, State.setSp_sp, State.setSp_setSp, hsp]
    exact hread
  rw [stackAddress_toNat] at hsame hother
  exact ⟨_, _, hpush, hpull, rfl, hsame hk, hother⟩

/-- The instruction pushes `v`: it is refused where the stack address is in a device, and else changes the stack byte, where RAM is,
SP and PC only (R140). -/
def PushesByte (i : Instr) (v : Byte) (s : State) : Prop :=
  (s.isIo (stackAddress s.sp) = true → exec i s = .refused (.ioRegion (stackAddress s.sp))) ∧
    (s.isIo (stackAddress s.sp) = false → ∃ t, exec i s = .next t ∧
      t = { s with sp := s.sp - 1, mem := t.mem, pc := s.pc + 1 } ∧
      (s.kindAt (stackAddress s.sp) = .ram → t.mem.read (0x0100 + s.sp.toNat) = v) ∧
      (s.kindAt (stackAddress s.sp) ≠ .ram → t.mem = s.mem) ∧
      ∀ c, c ≠ 0x0100 + s.sp.toNat → t.mem.read c = s.mem.read c)

theorem pushesByte_of_runPush {i : Instr} {v : Byte} {s : State} (h : exec i s = runPush v s) : PushesByte i v s := by
  rw [PushesByte, h]
  refine ⟨fun hio => outcome_refused.mpr (bind_error.mpr (.inl (push_io hio))), fun hio => ?_⟩
  obtain ⟨m, hpush, hresult⟩ := push_result v hio
  rw [stackAddress_toNat] at hresult
  exact ⟨_, runPush_next.mpr ⟨_, hpush, rfl⟩, rfl, hresult⟩

/-- Settles O22: PHA and PHP are pushes of their byte, PLA and PLP the pull and its update. -/
theorem stackInstructions : Obligations.StackInstructions := by
  refine ⟨fun s i v hi => ?_, fun s s₁ m hpull => ?_⟩
  · simp only [List.mem_cons, Prod.mk.injEq, List.not_mem_nil, or_false] at hi
    obtain ⟨rfl, rfl⟩ | ⟨rfl, rfl⟩ := hi
    · exact pushesByte_of_runPush rfl
    · exact pushesByte_of_runPush rfl
  · obtain ⟨n, rfl⟩ := pull_frame hpull
    have hpla : execPla s = _ := runPull_next.mpr ⟨m, _, hpull, rfl⟩
    have hplp : execPlp s = _ := runPull_next.mpr ⟨m, _, hpull, rfl⟩
    exact ⟨hpla, hplp⟩

/-! JSR. -/

theorem jsrOverlaps_iff {s : State} :
    jsrOverlaps s = true ↔ s.pc + 2 = stackAddress s.sp ∨ s.pc + 2 = stackAddress (s.sp - 1) := by
  simp [jsrOverlaps]

theorem exec_jsr_overlap {a : Word} {s : State} (h : jsrOverlaps s = true) :
    exec (.jsr a) s = .refused (.jsrOverwritesOperand (s.pc + 2)) :=
  outcome_refused.mpr (if_pos h)

/-- Where it does not overlap, JSR is two pushes and the jump (R211). -/
theorem exec_jsr {a : Word} {s : State} (h : jsrOverlaps s = false) :
    exec (.jsr a) s = outcome (do
      let s' ← push (hiByte (s.pc + 2)) s
      let s' ← push (loByte (s.pc + 2)) s'
      pure (s'.setPc a)) :=
  congrArg outcome (if_neg (by simp [h]))

/-- The two stack bytes that JSR writes are different cells. -/
theorem stackAddress_toNat_ne_pred (sp : Byte) : (stackAddress sp).toNat ≠ (stackAddress (sp - 1)).toNat := by
  rw [stackAddress_toNat, stackAddress_toNat]
  bv_omega

/-- Settles O39: the overlap is refused first; else the second push leaves the byte of the first alone. -/
theorem jsrPushesItsLastByteAddress : Obligations.JsrPushesItsLastByteAddress := by
  refine fun a s => ⟨fun h => exec_jsr_overlap (jsrOverlaps_iff.mpr h), fun hne₁ hne₂ hio₁ hio₂ => ?_⟩
  have hover : jsrOverlaps s = false :=
    Bool.eq_false_iff.mpr fun h => (jsrOverlaps_iff.mp h).elim hne₁ hne₂
  obtain ⟨m₁, hpush₁, hram₁, hdrop₁, hother₁⟩ := push_result (hiByte (s.pc + 2)) hio₁
  obtain ⟨m₂, hpush₂, hram₂, hdrop₂, hother₂⟩ :=
    push_result (s := (s.setMem m₁).setSp (s.sp - 1)) (loByte (s.pc + 2)) hio₂
  have hne := stackAddress_toNat_ne_pred s.sp
  have hexec : exec (.jsr a) s = .next ((s.setMem m₂).setSp (s.sp - 1 - 1) |>.setPc a) := by
    rw [exec_jsr hover, outcome_next]
    exact bind_ok.mpr ⟨_, hpush₁, bind_ok.mpr ⟨_, hpush₂, rfl⟩⟩
  have hsp : s.sp - 1 - 1 = s.sp - 2 := by bv_omega
  refine ⟨_, hexec, by rw [hsp]; rfl, fun hk => ?_, hram₂, fun hk => ?_, fun hk => ?_, fun c hc₁ hc₂ => ?_⟩
  · exact (hother₂ _ hne).trans (hram₁ hk)
  · exact (hother₂ _ hne).trans (congrArg (Memory.read · _) (hdrop₁ hk))
  · exact (congrArg (Memory.read · _) (hdrop₂ hk)).trans (hother₁ _ hne.symm)
  · exact (hother₂ c hc₂).trans (hother₁ c hc₁)

/-! A store to code. -/

/-- On plain memory every read gives what memory holds (R41). -/
theorem readByte_plainMemory {s : State} (h : s.PlainMemory) (a : Word) : readByte a s = .ok (s.mem.read a.toNat, s) := by
  obtain ⟨hmap, hio⟩ := h
  exact readByte_plain (State.isIo_of_noDevices hio a) (by simp [State.kindAt, hmap])

/-- On plain memory every fetch answers, with an instruction whose opcode is the byte at PC. -/
theorem fetchInstr_plainMemory {s : State} (h : s.PlainMemory) :
    ∃ i, fetchInstr s = .ok (i, s) ∧ (encode i).head? = some (s.mem.read s.pc.toNat) := by
  have hread := readByte_plainMemory h
  have henc := cellOf_encodesAs s.par.hasRor (s.mem.read s.pc.toNat)
  cases hcell : cellOf s.par.hasRor (s.mem.read s.pc.toNat) with rw [hcell] at henc
  | f1 i => exact ⟨i, fetchInstr_f1 (hread _) hcell, congrArg List.head? (henc 0 0)⟩
  | f2 mk => exact ⟨_, fetchInstr_f2 (hread _) hcell (hread _), congrArg List.head? (henc _ 0)⟩
  | f3 mk => exact ⟨_, fetchInstr_f3 (hread _) hcell (hread _) (hread _), congrArg List.head? (henc 0 _)⟩
  | future => exact ⟨_, fetchInstr_future (hread _) hcell, congrArg List.head? (henc 0 0)⟩

/-- Settles O13: the STA leaves A in the byte at the new PC (`writeByte_result`), and the fetch there reads it. -/
theorem storeToCodeIsFetchedNext : Obligations.StoreToCodeIsFetchedNext := by
  intro s h
  obtain ⟨m, hw, hsame, -, -⟩ := writeByte_result (a := s.pc + 3) s.a (State.isIo_of_noDevices h.2 _)
  have hexec : exec (.staAbs (s.pc + 3)) s = .next ((s.setMem m).advance 3) :=
    runStore_next.mpr ⟨s.pc + 3, s, _, rfl, hw, rfl⟩
  obtain ⟨i, hfetch, hop⟩ := fetchInstr_plainMemory (s := (s.setMem m).advance 3) h
  have hbyte : m.read (s.pc + 3).toNat = s.a := hsame (by simp [State.kindAt, h.1])
  exact ⟨_, hexec, rfl, i, hfetch, hop.trans (congrArg some hbyte)⟩

end Sys2Proof.Machine

/-! The memory operand (R51, R87, R88): which shape each instruction with a memory form has, what the read-modify-write
instructions make of their byte, and the addresses outside which no byte differs (R46, R49). -/

namespace Sys2Proof.Machine

/-! Read, modify, write. -/

/-- The instruction replaces the byte at `ea`, where RAM is, by `r.1`, sets N and Z from it and C to `r.2`, and changes nothing else
but PC and the count of free values. -/
def ModifiesByte (i : Instr) (m : MemForm) (r : Byte × Bool) (ea : Word) (s s₂ : State) : Prop :=
  ∃ t, exec i s = .next t ∧
    t = { s with
      mem := t.mem
      p := { s.p with n := r.1.msb, z := r.1 == 0, c := r.2 }
      pc := s.pc + m.length
      draws := s₂.draws } ∧
    (s.kindAt ea = .ram → t.mem.read ea.toNat = r.1) ∧ (s.kindAt ea ≠ .ram → t.mem = s.mem) ∧
    ∀ c, c ≠ ea.toNat → t.mem.read c = s.mem.read c

section
variable {compute : Byte → Status → Byte × Status} {i : Instr} {m : MemForm} {r : Byte × Bool} {ea : Word} {v : Byte}
  {s s₁ s₂ : State}

theorem modifiesByte_of_runModifyMemory (hexec : exec i s = runModifyMemory compute m s)
    (hcompute : compute v s.p = (r.1, s.p.setShift r)) (hea : effectiveAddress m s = .ok (ea, s₁))
    (hread : readByte ea s₁ = .ok (v, s₂)) : ModifiesByte i m r ea s s₂ := by
  have hio : s₁.isIo ea = false := (readByte_answers ea s₁).mp ⟨_, hread⟩
  obtain ⟨_, rfl⟩ := effectiveAddress_frame hea
  obtain ⟨n, rfl⟩ := readByte_frame hread
  obtain ⟨mem, hw, hresult⟩ :=
    writeByte_result (s := (s.setDraws n).setP (compute v s.p).2) (compute v s.p).1 hio
  have hnext := runModifyMemory_next.mpr ⟨ea, _, v, _, _, hea, hread, hw, rfl⟩
  rw [hcompute] at hnext hresult
  exact ⟨_, hexec.trans hnext, rfl, hresult⟩

/-- A shift or rotate of memory replaces its byte (R175). -/
theorem modifiesByte_of_shift {shift : Byte → Bool → Byte × Bool}
    (hexec : exec i s = runModifyMemory (shiftWith shift) m s) (hea : effectiveAddress m s = .ok (ea, s₁))
    (hread : readByte ea s₁ = .ok (v, s₂)) : ModifiesByte i m (shift v s.p.c) ea s s₂ :=
  modifiesByte_of_runModifyMemory hexec rfl hea hread

/-- An INC or DEC replaces its byte and leaves C as it was (R185). -/
theorem modifiesByte_of_withNZ {f : Byte → Byte}
    (hexec : exec i s = runModifyMemory (fun v p => withNZ (f v) p) m s) (hea : effectiveAddress m s = .ok (ea, s₁))
    (hread : readByte ea s₁ = .ok (v, s₂)) : ModifiesByte i m (f v, s.p.c) ea s s₂ :=
  modifiesByte_of_runModifyMemory hexec rfl hea hread

end

/-- Settles O34: row by row, the instruction is a read-modify-write with the computation of its row. -/
theorem readModifyWriteResults : Obligations.ReadModifyWriteResults := by
  intro b a s s₁ s₂ i m r ea v hrow hea hread
  iterate 16
    obtain h | hrow := List.mem_cons.mp hrow
    · cases h
      exact modifiesByte_of_shift rfl hea hread
  iterate 4
    obtain h | hrow := List.mem_cons.mp hrow
    · cases h
      exact modifiesByte_of_withNZ (f := (· + 1)) rfl hea hread
  iterate 4
    obtain h | hrow := List.mem_cons.mp hrow
    · cases h
      exact modifiesByte_of_withNZ (f := (· - 1)) rfl hea hread
  cases hrow

/-! Which instructions store. -/

theorem writeSet_mem (i : Instr) :
    (writeSet i).mem = true →
      mnemonic i ∈ ["STA", "STX", "STY", "INC", "DEC", "PHA", "PHP", "JSR", "BRK"] ∨
        (mnemonic i ∈ ["ASL", "LSR", "ROL", "ROR"] ∧ formOf i ≠ some .acc) := by
  cases i <;> simp [writeSet, mnemonic, formOf]

theorem exec_mem {i : Instr} {s t : State} (h : exec i s = .next t) (hm : (writeSet i).mem = false) : t.mem = s.mem := by
  have hw : t.mem = bif (writeSet i).mem then t.mem else s.mem := congrArg State.mem (exec_writes h)
  rwa [hm] at hw

/-- An instruction with a memory form reads its operand, stores there or modifies it, and stores in the last two cases only. -/
theorem exec_of_memFormOf {i : Instr} {m : MemForm} (s : State) (h : memFormOf i = some m) :
    ((writeSet i).mem = false ∧ ∃ update, exec i s = runRead update (.mem m) s) ∨
      (∃ v, exec i s = runStore v m s) ∨ ∃ compute, exec i s = runModifyMemory compute m s := by
  cases i with cases h
  | ldaZp | ldaZpx | ldaAbs | ldaAbx | ldaAby | ldaIzx | ldaIzy => exact .inl ⟨rfl, _, show lda _ s = _ from rfl⟩
  | ldxZp | ldxZpy | ldxAbs | ldxAby => exact .inl ⟨rfl, _, show ldx _ s = _ from rfl⟩
  | ldyZp | ldyZpx | ldyAbs | ldyAbx => exact .inl ⟨rfl, _, show ldy _ s = _ from rfl⟩
  | adcZp | adcZpx | adcAbs | adcAbx | adcAby | adcIzx | adcIzy => exact .inl ⟨rfl, _, show adc _ s = _ from rfl⟩
  | sbcZp | sbcZpx | sbcAbs | sbcAbx | sbcAby | sbcIzx | sbcIzy => exact .inl ⟨rfl, _, show sbc _ s = _ from rfl⟩
  | cmpZp | cmpZpx | cmpAbs | cmpAbx | cmpAby | cmpIzx | cmpIzy => exact .inl ⟨rfl, _, show cmp _ s = _ from rfl⟩
  | cpxZp | cpxAbs => exact .inl ⟨rfl, _, show cpx _ s = _ from rfl⟩
  | cpyZp | cpyAbs => exact .inl ⟨rfl, _, show cpy _ s = _ from rfl⟩
  | andZp | andZpx | andAbs | andAbx | andAby | andIzx | andIzy => exact .inl ⟨rfl, _, show andA _ s = _ from rfl⟩
  | eorZp | eorZpx | eorAbs | eorAbx | eorAby | eorIzx | eorIzy => exact .inl ⟨rfl, _, show eorA _ s = _ from rfl⟩
  | oraZp | oraZpx | oraAbs | oraAbx | oraAby | oraIzx | oraIzy => exact .inl ⟨rfl, _, show oraA _ s = _ from rfl⟩
  | bitZp | bitAbs => exact .inl ⟨rfl, _, show bitTest _ s = _ from rfl⟩
  | staZp | staZpx | staAbs | staAbx | staAby | staIzx | staIzy => exact .inr (.inl ⟨_, show sta _ s = _ from rfl⟩)
  | stxZp | stxZpy | stxAbs => exact .inr (.inl ⟨_, show stx _ s = _ from rfl⟩)
  | styZp | styZpx | styAbs => exact .inr (.inl ⟨_, show sty _ s = _ from rfl⟩)
  | aslZp | aslZpx | aslAbs | aslAbx => exact .inr (.inr ⟨shiftWith aslByte, rfl⟩)
  | lsrZp | lsrZpx | lsrAbs | lsrAbx => exact .inr (.inr ⟨shiftWith lsrByte, rfl⟩)
  | rolZp | rolZpx | rolAbs | rolAbx => exact .inr (.inr ⟨shiftWith rolByte, rfl⟩)
  | rorZp | rorZpx | rorAbs | rorAbx => exact .inr (.inr ⟨shiftWith rorByte, rfl⟩)
  | incZp | incZpx | incAbs | incAbx => exact .inr (.inr ⟨_, show inc _ s = _ from rfl⟩)
  | decZp | decZpx | decAbs | decAbx => exact .inr (.inr ⟨_, show dec _ s = _ from rfl⟩)

/-- Without a memory form only the instructions that push store. -/
theorem pushes_of_writeSet_mem (i : Instr) :
    memFormOf i = none → (writeSet i).mem = true → i = .pha ∨ i = .php ∨ (∃ a, i = .jsr a) ∨ i = .brk := by
  intro hform hm
  cases i with
  | pha | php | jsr | brk => simp
  | _ => simp [memFormOf, writeSet] at hform hm

/-! The bytes that can differ. -/

section
variable {m : MemForm} {s t : State} {c : Nat}

theorem runStore_other {v : Byte} (h : runStore v m s = .next t)
    (hc : ∀ ea u, effectiveAddress m s = .ok (ea, u) → c ≠ ea.toNat) : t.mem.read c = s.mem.read c := by
  obtain ⟨ea, u, w, hea, hw, rfl⟩ := runStore_next.mp h
  have hother := writeByte_other hw c (hc ea u hea)
  obtain ⟨n, rfl⟩ := effectiveAddress_frame hea
  exact hother

theorem runModifyMemory_other {compute : Byte → Status → Byte × Status} (h : runModifyMemory compute m s = .next t)
    (hc : ∀ ea u, effectiveAddress m s = .ok (ea, u) → c ≠ ea.toNat) : t.mem.read c = s.mem.read c := by
  obtain ⟨ea, u, v, w, x, hea, hread, hw, rfl⟩ := runModifyMemory_next.mp h
  have hother := writeByte_other hw c (hc ea u hea)
  obtain ⟨_, rfl⟩ := effectiveAddress_frame hea
  obtain ⟨n, rfl⟩ := readByte_frame hread
  exact hother

theorem push_other {v : Byte} (h : push v s = .ok t) (hc : c ≠ (stackAddress s.sp).toNat) :
    t.mem.read c = s.mem.read c := by
  obtain ⟨u, hw, rfl⟩ := push_cases h
  exact writeByte_other hw c hc

theorem push_push_other {v₁ v₂ : Byte} {u : State} (h₁ : push v₁ s = .ok u) (h₂ : push v₂ u = .ok t)
    (hc₁ : c ≠ (stackAddress s.sp).toNat) (hc₂ : c ≠ (stackAddress (s.sp - 1)).toNat) :
    t.mem.read c = s.mem.read c := by
  have hfirst := push_other h₁ hc₁
  obtain ⟨mem, rfl⟩ := push_frame h₁
  exact (push_other h₂ hc₂).trans hfirst

theorem execJsr_other {a : Word} (h : execJsr a s = .next t) (hc₁ : c ≠ (stackAddress s.sp).toNat)
    (hc₂ : c ≠ (stackAddress (s.sp - 1)).toNat) : t.mem.read c = s.mem.read c := by
  have h := outcome_next.mp h
  dsimp only at h
  split at h
  · cases h
  · obtain ⟨u, hhi, h⟩ := bind_ok.mp h
    obtain ⟨w, hlo, h⟩ := bind_ok.mp h
    have hmem := push_push_other hhi hlo hc₁ hc₂
    cases pure_ok.mp h
    exact hmem

/-- An interrupt entry stores its three frame bytes only (R245). -/
theorem takeInterrupt_other {k : InterruptKind} (h : takeInterrupt k s = .ok t) (hc₁ : c ≠ (stackAddress s.sp).toNat)
    (hc₂ : c ≠ (stackAddress (s.sp - 1)).toNat) (hc₃ : c ≠ (stackAddress (s.sp - 2)).toNat) :
    t.mem.read c = s.mem.read c := by
  obtain ⟨u₁, h₁, h⟩ := bind_ok.mp h
  obtain ⟨u₂, h₂, h⟩ := bind_ok.mp h
  obtain ⟨u₃, h₃, h⟩ := bind_ok.mp h
  obtain ⟨⟨target, u₄⟩, h₄, h⟩ := bind_ok.mp h
  cases pure_ok.mp h
  have htwo := push_push_other h₁ h₂ hc₁ hc₂
  obtain ⟨mem, rfl⟩ := push_push_frame h₁ h₂
  have hsp : s.sp - 1 - 1 = s.sp - 2 := by bv_omega
  rw [← hsp] at hc₃
  have hthird := push_other h₃ hc₃
  obtain ⟨n, rfl⟩ := read16_frame h₄
  exact hthird.trans htwo

end

/-- Settles O58: an instruction whose row does not name memory leaves it whole; of the others, those with a memory form write at its
address and the rest push. -/
theorem memoryWriters : Obligations.MemoryWriters := by
  intro i s t h
  refine ⟨fun hne => writeSet_mem i ?_, fun c hea hfirst hsecond hthird => ?_⟩
  · by_contra hm
    exact hne (exec_mem h (Bool.eq_false_iff.mpr hm))
  cases hm : (writeSet i).mem with
  | false => rw [exec_mem h hm]
  | true =>
    cases hform : memFormOf i with
    | some m =>
      obtain ⟨hread, -⟩ | ⟨v, hx⟩ | ⟨compute, hx⟩ := exec_of_memFormOf s hform
      · rw [hread] at hm
        cases hm
      · exact runStore_other (hx ▸ h) fun ea u => hea m ea u hform
      · exact runModifyMemory_other (hx ▸ h) fun ea u => hea m ea u hform
    | none =>
      obtain rfl | rfl | ⟨a, rfl⟩ | rfl := pushes_of_writeSet_mem i hform hm
      · obtain ⟨u, hpush, rfl⟩ := runPush_next.mp (show execPha s = _ from h)
        exact (push_other hpush (hfirst (by simp [mnemonic])) :)
      · obtain ⟨u, hpush, rfl⟩ := runPush_next.mp (show execPhp s = _ from h)
        exact (push_other hpush (hfirst (by simp [mnemonic])) :)
      · exact execJsr_other h (hfirst (by simp [mnemonic])) (hsecond (by simp [mnemonic]))
      · exact takeInterrupt_other (outcome_next.mp h) (hfirst (by simp [mnemonic])) (hsecond (by simp [mnemonic])) (hthird rfl)

end Sys2Proof.Machine

/-! Device regions (R50, R243 (d)): an operation that makes its accesses in a row is refused at the first of them that a device
region holds, and so is the instruction that runs it. -/

namespace Sys2Proof.Machine

theorem State.isIo_of_par {s t : State} (h : s.par = t.par) : s.isIo = t.isIo := by
  unfold State.isIo
  rw [h]

/-- Of the addresses, in the order of the accesses, the first one in a device region is where the operation is refused. -/
def RefusedAtFirstDevice {α : Type} (isIo : Word → Bool) (accesses : List Word) (x : Except Refusal α) : Prop :=
  ∀ d, accesses.find? isIo = some d → x = .error (.ioRegion d)

namespace RefusedAtFirstDevice

section
variable {α β : Type} {isIo : Word → Bool} {a : Word} {accesses : List Word} {s : State}

theorem nil {x : Except Refusal α} : RefusedAtFirstDevice isIo [] x := fun _ h => nomatch h

/-- What is refused stays refused whatever would follow. -/
theorem bind {x : Except Refusal α} {f : α → Except Refusal β} (h : RefusedAtFirstDevice isIo accesses x) :
    RefusedAtFirstDevice isIo accesses (x >>= f) :=
  fun d hd => bind_error.mpr (.inl (h d hd))

/-- An access that is refused exactly where a device is, before the others. -/
theorem cons_bind {x : Except Refusal α} {f : α → Except Refusal β} (hio : isIo a = true → x = .error (.ioRegion a))
    (hok : isIo a = false → ∃ v, x = .ok v ∧ RefusedAtFirstDevice isIo accesses (f v)) :
    RefusedAtFirstDevice isIo (a :: accesses) (x >>= f) := by
  intro d hd
  cases ha : isIo a with
  | true =>
    rw [List.find?_cons_of_pos ha] at hd
    cases hd
    exact bind_error.mpr (.inl (hio ha))
  | false =>
    rw [List.find?_cons_of_neg (by simp [ha])] at hd
    obtain ⟨v, hv, hf⟩ := hok ha
    exact bind_error.mpr (.inr ⟨v, hv, hf d hd⟩)

theorem readByte_bind {f : Byte × State → Except Refusal β} (hs : s.isIo = isIo)
    (h : ∀ v n, RefusedAtFirstDevice isIo accesses (f (v, s.setDraws n))) :
    RefusedAtFirstDevice isIo (a :: accesses) (readByte a s >>= f) := by
  subst hs
  refine cons_bind readByte_io fun hio => ?_
  obtain ⟨⟨v, t⟩, hread⟩ := (readByte_answers a s).mpr hio
  obtain ⟨n, rfl⟩ := readByte_frame hread
  exact ⟨_, hread, h v n⟩

theorem push_bind {v : Byte} {f : State → Except Refusal β} (hs : s.isIo = isIo) (ha : stackAddress s.sp = a)
    (h : ∀ m, RefusedAtFirstDevice isIo accesses (f ((s.setMem m).setSp (s.sp - 1)))) :
    RefusedAtFirstDevice isIo (a :: accesses) (push v s >>= f) := by
  subst hs ha
  refine cons_bind push_io fun hio => ?_
  obtain ⟨m, hpush, -⟩ := push_result v hio
  exact ⟨_, hpush, h m⟩

theorem pull_bind {f : Byte × State → Except Refusal β} (hs : s.isIo = isIo) (ha : stackAddress (s.sp + 1) = a)
    (h : ∀ v n, RefusedAtFirstDevice isIo accesses (f (v, (s.setSp (s.sp + 1)).setDraws n))) :
    RefusedAtFirstDevice isIo (a :: accesses) (pull s >>= f) := by
  subst ha
  exact readByte_bind (s := s.setSp (s.sp + 1)) hs h

end

end RefusedAtFirstDevice

/-! The operations, with the addresses they access in order. -/

section
open RefusedAtFirstDevice
variable (s : State)

theorem read16_refusedAtFirstDevice {s : State} {isIo : Word → Bool} (hs : s.isIo = isIo) (a : Word) :
    RefusedAtFirstDevice isIo [a, a + 1] (read16 a s) :=
  readByte_bind hs fun _ _ => readByte_bind hs fun _ _ => nil

theorem read16zp_refusedAtFirstDevice (z : Byte) :
    RefusedAtFirstDevice s.isIo [zeroPage z, zeroPage (z + 1)] (read16zp z s) :=
  readByte_bind rfl fun _ _ => readByte_bind rfl fun _ _ => nil

/-- The pushes of the frame, then the bytes of the vector (R245). -/
theorem takeInterrupt_refusedAtFirstDevice (k : InterruptKind) :
    RefusedAtFirstDevice s.isIo
      [stackAddress s.sp, stackAddress (s.sp - 1), stackAddress (s.sp - 1 - 1), k.vector, k.vector + 1]
      (takeInterrupt k s) := by
  refine push_bind rfl rfl fun m₁ => push_bind rfl rfl fun m₂ => ?_
  refine push_bind (State.isIo_of_par rfl) rfl fun m₃ => ?_
  dsimp only
  refine (read16_refusedAtFirstDevice (State.isIo_of_par ?_) k.vector).bind
  simp only [State.setP_par, State.setSp_par, State.setMem_par]

theorem returnFromInterrupt_refusedAtFirstDevice :
    RefusedAtFirstDevice s.isIo
      [stackAddress (s.sp + 1), stackAddress (s.sp + 1 + 1), stackAddress (s.sp + 1 + 1 + 1)]
      (returnFromInterrupt s) :=
  pull_bind rfl rfl fun _ _ => pull_bind rfl rfl fun _ _ => pull_bind rfl rfl fun _ _ => nil

/-- The pointer of the two indexed indirect forms (R84, R85). -/
theorem effectiveAddress_refusedAtFirstDevice {m : MemForm} {b z : Byte}
    (h : m = .izx b ∧ z = b + s.x ∨ m = .izy b ∧ z = b) :
    RefusedAtFirstDevice s.isIo [zeroPage z, zeroPage (z + 1)] (effectiveAddress m s) := by
  obtain ⟨rfl, rfl⟩ | ⟨rfl, rfl⟩ := h
  · exact read16zp_refusedAtFirstDevice s _
  · exact (read16zp_refusedAtFirstDevice s _).bind

/-! The pointer of a JMP (Oper), by where R83 finds its high byte. -/

theorem indirectTarget_refusedAtFirstDevice (a : Word) : RefusedAtFirstDevice s.isIo [a] (indirectTarget a s) :=
  readByte_bind rfl fun _ _ => nil

theorem indirectTarget_refusedAtFirstDevice_next {a : Word} (h : loByte a ≠ 0xFF ∨ s.par.jmpIndPageWrap = .nextPage) :
    RefusedAtFirstDevice s.isIo [a, a + 1] (indirectTarget a s) := by
  refine readByte_bind rfl fun v n => ?_
  dsimp only
  split
  · exact readByte_bind rfl fun _ _ => nil
  · next hlo =>
    rw [State.setDraws_par, h.resolve_left hlo]
    exact readByte_bind rfl fun _ _ => nil

theorem indirectTarget_refusedAtFirstDevice_samePage {a : Word} (hlo : ¬ loByte a ≠ 0xFF)
    (h : s.par.jmpIndPageWrap = .samePage) :
    RefusedAtFirstDevice s.isIo [a, wordOf (hiByte a) 0x00] (indirectTarget a s) := by
  refine readByte_bind rfl fun v n => ?_
  dsimp only
  rw [if_neg hlo, State.setDraws_par, h]
  exact readByte_bind rfl fun _ _ => nil

end

/-! The instructions. -/

theorem exec_refused_of_effectiveAddress {i : Instr} {m : MemForm} {s : State} {r : Refusal}
    (hform : memFormOf i = some m) (h : effectiveAddress m s = .error r) : exec i s = .refused r := by
  obtain ⟨-, update, hx⟩ | ⟨v, hx⟩ | ⟨compute, hx⟩ := exec_of_memFormOf s hform <;> rw [hx]
  · exact outcome_refused.mpr (bind_error.mpr (.inl (bind_error.mpr (.inl h))))
  · exact outcome_refused.mpr (bind_error.mpr (.inl h))
  · exact outcome_refused.mpr (bind_error.mpr (.inl h))

theorem exec_refused_of_operand_io {i : Instr} {m : MemForm} {s t : State} {ea : Word} (hform : memFormOf i = some m)
    (h : effectiveAddress m s = .ok (ea, t)) (hio : s.isIo ea = true) : exec i s = .refused (.ioRegion ea) := by
  obtain ⟨n, rfl⟩ := effectiveAddress_frame h
  have hread : readByte ea (s.setDraws n) = .error (.ioRegion ea) := readByte_io hio
  obtain ⟨-, update, hx⟩ | ⟨v, hx⟩ | ⟨compute, hx⟩ := exec_of_memFormOf s hform <;> rw [hx]
  · exact outcome_refused.mpr (bind_error.mpr (.inl (bind_error.mpr (.inr ⟨_, h, hread⟩))))
  · exact outcome_refused.mpr (bind_error.mpr (.inr ⟨_, h, bind_error.mpr (.inl (writeByte_io hio))⟩))
  · exact outcome_refused.mpr (bind_error.mpr (.inr ⟨_, h, bind_error.mpr (.inl hread)⟩))

/-- The instruction is refused at the first of the addresses that a device region holds. -/
def ExecRefusedAtFirstDevice (i : Instr) (s : State) (accesses : List Word) : Prop :=
  ∀ d, accesses.find? s.isIo = some d → exec i s = .refused (.ioRegion d)

theorem execRefusedAtFirstDevice_of_outcome {i : Instr} {s : State} {accesses : List Word} {x : Except Refusal State}
    (hexec : exec i s = outcome x) (h : RefusedAtFirstDevice s.isIo accesses x) :
    ExecRefusedAtFirstDevice i s accesses :=
  fun d hd => hexec.trans (outcome_refused.mpr (h d hd))

section
open RefusedAtFirstDevice
variable (s : State)

/-- A JSR that overlaps is refused before its pushes (`exec_jsr_overlap`) and makes no access. -/
theorem jsr_refusedAtFirstDevice (a : Word) : ExecRefusedAtFirstDevice (.jsr a) s
    (if jsrOverlaps s then [] else [stackAddress s.sp, stackAddress (s.sp - 1)]) := by
  cases h : jsrOverlaps s with
  | true => exact fun _ hd => nomatch hd
  | false => exact execRefusedAtFirstDevice_of_outcome (exec_jsr h) (push_bind rfl rfl fun _ => push_bind rfl rfl fun _ => nil)

theorem rts_refusedAtFirstDevice :
    ExecRefusedAtFirstDevice .rts s [stackAddress (s.sp + 1), stackAddress (s.sp + 2)] := by
  have h2 : s.sp + 2 = s.sp + 1 + 1 := by bv_omega
  rw [h2]
  exact execRefusedAtFirstDevice_of_outcome rfl (pull_bind rfl rfl fun _ _ => pull_bind rfl rfl fun _ _ => nil)

theorem brk_refusedAtFirstDevice : ExecRefusedAtFirstDevice .brk s
    [stackAddress s.sp, stackAddress (s.sp - 1), stackAddress (s.sp - 2), 0xFFFE, 0xFFFF] := by
  have h2 : s.sp - 2 = s.sp - 1 - 1 := by bv_omega
  rw [h2]
  exact execRefusedAtFirstDevice_of_outcome rfl (takeInterrupt_refusedAtFirstDevice s .brk)

theorem rti_refusedAtFirstDevice : ExecRefusedAtFirstDevice .rti s
    [stackAddress (s.sp + 1), stackAddress (s.sp + 2), stackAddress (s.sp + 3)] := by
  have h2 : s.sp + 2 = s.sp + 1 + 1 := by bv_omega
  have h3 : s.sp + 3 = s.sp + 1 + 1 + 1 := by bv_omega
  rw [h2, h3]
  exact execRefusedAtFirstDevice_of_outcome rfl (returnFromInterrupt_refusedAtFirstDevice s)

theorem jmpInd_refusedAtFirstDevice {a : Word} {accesses : List Word}
    (h : RefusedAtFirstDevice s.isIo accesses (indirectTarget a s)) : ExecRefusedAtFirstDevice (.jmpInd a) s accesses :=
  execRefusedAtFirstDevice_of_outcome rfl h.bind

end

/-- Settles O52: a device in the operand or in its pointer through the shape of the instruction, the others row by row. -/
theorem deviceAccessesAreRefused : Obligations.DeviceAccessesAreRefused := by
  intro i s
  refine ⟨fun m hform => ⟨fun r => exec_refused_of_effectiveAddress hform,
    fun ea t => exec_refused_of_operand_io hform⟩, fun b z d hform hd => ?_, fun a accesses d hrow => ?_⟩
  · obtain ⟨hform, hz⟩ | ⟨hform, hz⟩ := hform
    · exact exec_refused_of_effectiveAddress hform (effectiveAddress_refusedAtFirstDevice s (.inl ⟨rfl, hz⟩) d hd)
    · exact exec_refused_of_effectiveAddress hform (effectiveAddress_refusedAtFirstDevice s (.inr ⟨rfl, hz⟩) d hd)
  · simp only [List.mem_cons, Prod.mk.injEq, List.not_mem_nil, or_false] at hrow
    obtain ⟨rfl, rfl⟩ | ⟨rfl, rfl⟩ | ⟨rfl, rfl⟩ | ⟨rfl, rfl⟩ | ⟨rfl, rfl⟩ | ⟨rfl, rfl⟩ | ⟨rfl, rfl⟩ |
      ⟨rfl, rfl⟩ | ⟨rfl, rfl⟩ := hrow
    · exact execRefusedAtFirstDevice_of_outcome rfl (.push_bind rfl rfl fun _ => .nil) d
    · exact execRefusedAtFirstDevice_of_outcome rfl (.push_bind rfl rfl fun _ => .nil) d
    · exact execRefusedAtFirstDevice_of_outcome rfl (.pull_bind rfl rfl fun _ _ => .nil) d
    · exact execRefusedAtFirstDevice_of_outcome rfl (.pull_bind rfl rfl fun _ _ => .nil) d
    · exact jsr_refusedAtFirstDevice s a d
    · exact rts_refusedAtFirstDevice s d
    · exact brk_refusedAtFirstDevice s d
    · exact rti_refusedAtFirstDevice s d
    · refine jmpInd_refusedAtFirstDevice s ?_ d
      split
      · next hlo => exact indirectTarget_refusedAtFirstDevice_next s (.inl hlo)
      · next hlo =>
        cases hwrap : s.par.jmpIndPageWrap with
        | unset => exact indirectTarget_refusedAtFirstDevice s a
        | samePage => exact indirectTarget_refusedAtFirstDevice_samePage s hlo hwrap
        | nextPage => exact indirectTarget_refusedAtFirstDevice_next s (.inr hwrap)

end Sys2Proof.Machine

/-! Encoding (R70, R71, R95 to R98): what every cell of the opcode matrix holds besides its encoding (`cellOf_encodesAs`), the two
round trips of decoder and encoder, and the refusal of the reserved opcodes. -/

namespace Sys2Proof

open Machine

/-- The instruction that a cell gives its opcode and an operand, the byte `b` or the word `a` as the cell's format has it. -/
def Cell.instr (op : Byte) (c : Cell) (b : Byte) (a : Word) : Instr :=
  match c with
  | .f1 i => i
  | .f2 mk => mk b
  | .f3 mk => mk a
  | .future => .reserved op

def Cell.isFuture (c : Cell) : Bool :=
  match c with
  | .future => true
  | .f1 _ | .f2 _ | .f3 _ => false

/-- The cell's instructions are those of the part, with one mnemonic and one operand form, and the opcode is reserved exactly where
the cell is Future Expansion (R71, R97, R98). -/
def Cell.DescribesPart (hasRor : Bool) (op : Byte) (c : Cell) : Prop :=
  isReserved hasRor op = c.isFuture ∧ ∀ b a, (c.instr op b a).wf hasRor = true ∧
    mnemonic (c.instr op b a) = mnemonic (c.instr op 0 0) ∧ formOf (c.instr op b a) = formOf (c.instr op 0 0)

/-- The matrix of R95, cell by cell, against the lists of R97 and R98. -/
theorem opcodeRow_describesPart (hasRor : Bool) (hi lo : Nat) (hhi : hi < 16) (hlo : lo < 16) :
    ((opcodeRow hasRor hi).getD lo .future).DescribesPart hasRor (BitVec.ofNat 8 (hi * 16 + lo)) := by
  cases hasRor <;> interval_cases hi <;> interval_cases lo <;> exact ⟨rfl, fun _ _ => ⟨rfl, rfl, rfl⟩⟩

theorem cellOf_describesPart (hasRor : Bool) (op : Byte) : (cellOf hasRor op).DescribesPart hasRor op := by
  have hop : BitVec.ofNat 8 (op.toNat / 16 * 16 + op.toNat % 16) = op := by
    rw [Nat.div_add_mod', BitVec.ofNat_toNat, BitVec.setWidth_eq]
  have hrow := opcodeRow_describesPart hasRor (op.toNat / 16) (op.toNat % 16) (by omega) (by omega)
  rwa [hop] at hrow

theorem cellOf_of_isReserved {hasRor : Bool} {op : Byte} (h : isReserved hasRor op = true) :
    cellOf hasRor op = .future := by
  have hfuture := (cellOf_describesPart hasRor op).1
  rw [h] at hfuture
  cases hcell : cellOf hasRor op with
  | future => rfl
  | f1 | f2 | f3 => rw [hcell] at hfuture; cases hfuture

/-! Encoded, then decoded: an instruction whose cell is known is read back from its opcode and operand bytes. -/

section
variable {hasRor : Bool} {op : Byte} (rest : List Byte)

theorem decode_bytes1 {i : Instr} (h : cellOf hasRor op = .f1 i) :
    decode hasRor (bytes1 op ++ rest) = .ok (i, rest) := by
  simp [bytes1, decode, h]

theorem decode_bytes2 {mk : Byte → Instr} (b : Byte) (h : cellOf hasRor op = .f2 mk) :
    decode hasRor (bytes2 op b ++ rest) = .ok (mk b, rest) := by
  simp [bytes2, decode, h]

theorem decode_bytes3 {mk : Word → Instr} (a : Word) (h : cellOf hasRor op = .f3 mk) :
    decode hasRor (bytes3 op a ++ rest) = .ok (mk a, rest) := by
  simp [bytes3, decode, h]

theorem decode_future (h : cellOf hasRor op = .future) :
    decode hasRor (bytes1 op ++ rest) = .ok (.reserved op, rest) := by
  simp [bytes1, decode, h]

end

/-- Settles O1: each instruction stands in the cell of its opcode, and the decoder takes the operand that the format of the
cell wrote. -/
theorem decodeOfEncodeIsTheInstruction : Obligations.DecodeOfEncodeIsTheInstruction := by
  intro hasRor i rest hwf
  cases i with
  | reserved op => exact decode_future rest (cellOf_of_isReserved hwf)
  | rorAcc =>
    cases (hwf : hasRor = true)
    exact decode_bytes1 rest rfl
  | rorZp b | rorZpx b =>
    cases (hwf : hasRor = true)
    exact decode_bytes2 rest b rfl
  | rorAbs a | rorAbx a =>
    cases (hwf : hasRor = true)
    exact decode_bytes3 rest a rfl
  | tax | tay | tsx | txa | txs | tya | pha | php | pla | plp | aslAcc | lsrAcc | rolAcc | inx | iny | dex | dey | rts | clc
  | cld | cli | clv | sec | sed | sei | nop | brk | rti => exact decode_bytes1 rest rfl
  | ldaAbs a | ldaAbx a | ldaAby a | ldxAbs a | ldxAby a | ldyAbs a | ldyAbx a | staAbs a | staAbx a | staAby a | stxAbs a
  | styAbs a | adcAbs a | adcAbx a | adcAby a | sbcAbs a | sbcAbx a | sbcAby a | cmpAbs a | cmpAbx a | cmpAby a | cpxAbs a
  | cpyAbs a | andAbs a | andAbx a | andAby a | eorAbs a | eorAbx a | eorAby a | oraAbs a | oraAbx a | oraAby a | bitAbs a
  | aslAbs a | aslAbx a | lsrAbs a | lsrAbx a | rolAbs a | rolAbx a | incAbs a | incAbx a | decAbs a | decAbx a | jmpAbs a
  | jmpInd a | jsr a => exact decode_bytes3 rest a rfl
  | _ b => exact decode_bytes2 rest b rfl

/-! Decoded, then encoded. -/

/-- What decodes is an instruction of the opcode's cell. -/
theorem decode_instr {hasRor : Bool} {op : Byte} {bytes rest : List Byte} {i : Instr}
    (h : decode hasRor (op :: bytes) = .ok (i, rest)) : ∃ b a, i = (cellOf hasRor op).instr op b a := by
  obtain ⟨hc, -⟩ | ⟨mk, b, hc, rfl, -⟩ | ⟨mk, b1, b2, hc, rfl, -⟩ | ⟨hc, rfl, -⟩ := decode_cases h <;> rw [hc]
  · exact ⟨0, 0, rfl⟩
  · exact ⟨b, 0, rfl⟩
  · exact ⟨0, wordOf b2 b1, rfl⟩
  · exact ⟨0, 0, rfl⟩

/-- What decodes is encoded as the bytes that were read (R96). -/
theorem encode_of_decode {hasRor : Bool} {op : Byte} {bytes rest : List Byte} {i : Instr}
    (h : decode hasRor (op :: bytes) = .ok (i, rest)) : encode i ++ rest = op :: bytes := by
  obtain ⟨-, rfl, henc⟩ | ⟨_, _, -, -, rfl, henc⟩ | ⟨_, _, _, -, -, rfl, henc⟩ | ⟨-, -, rfl, henc⟩ := decode_cases h
  all_goals
    rw [henc]
    rfl

/-- Settles O2: what decodes is one of its cell's instructions (`decode_instr`), which are those of the part. -/
theorem encodeOfDecodeIsTheBytes : Obligations.EncodeOfDecodeIsTheBytes := by
  intro hasRor bytes rest i h
  cases bytes with
  | nil => cases h
  | cons op bytes =>
    obtain ⟨b, a, hi⟩ := decode_instr h
    obtain ⟨hwf, -, -⟩ := (cellOf_describesPart hasRor op).2 b a
    exact ⟨hi ▸ hwf, encode_of_decode h⟩

/-- The length of an encoding is that of the operand form (R71). -/
theorem encode_length (i : Instr) : Laws.EncodedLength.Statement i := by
  cases i <;> rfl

/-- Settles O3: all instructions of a cell have one mnemonic and one form, and the form gives the length (`encode_length`). -/
theorem opcodeByteDecidesForm : Obligations.OpcodeByteDecidesForm := by
  intro hasRor op r₁ r₂ t₁ t₂ i₁ i₂ h₁ h₂
  obtain ⟨b₁, a₁, rfl⟩ := decode_instr h₁
  obtain ⟨b₂, a₂, rfl⟩ := decode_instr h₂
  obtain ⟨-, hcell⟩ := cellOf_describesPart hasRor op
  obtain ⟨-, hmnemonic₁, hform₁⟩ := hcell b₁ a₁
  obtain ⟨-, hmnemonic₂, hform₂⟩ := hcell b₂ a₂
  have hform := hform₁.trans hform₂.symm
  refine ⟨hmnemonic₁.trans hmnemonic₂.symm, hform, ?_⟩
  rw [encode_length, encode_length, hform]

/-- Settles O4: the nine words, each decoded by the matrix. -/
theorem sampleWordsDecode : Obligations.SampleWordsDecode :=
  ⟨rfl, rfl, rfl, rfl, rfl, rfl, rfl, rfl, rfl⟩

end Sys2Proof

namespace Sys2Proof.Machine

theorem sampleInputs_pc (s : State) : (sampleInputs s).pc = s.pc := by
  obtain ⟨_, _, _, _, h⟩ := sampleInputs_frame s
  rw [h]

/-- Settles O5: the cell of a reserved opcode is Future Expansion, so the fetch ends with the opcode byte, and `exec` refuses. -/
theorem reservedOpcodesAreRefused : Obligations.ReservedOpcodesAreRefused := by
  refine ⟨fun op s => rfl, fun s u op hq hread hres => ?_⟩
  obtain ⟨n, hu⟩ := readByte_frame hread
  have hpar : u.par = s.par := by rw [hu]; exact (sampleInputs_keeps s).par
  rw [← sampleInputs_pc] at hread
  have hfetch := fetchInstr_future hread (cellOf_of_isReserved (hpar ▸ hres))
  rw [step_of_fetch hq hfetch]
  rfl

end Sys2Proof.Machine

/-! Operand forms (R76 to R88), branch targets (R86, R102, R195), the accumulator shifts (R175) and cycle counts (R89, R204,
R295). -/

namespace Sys2Proof.Machine

/-! Operand forms. -/

/-- The form `izy` adds Y to the pointer it reads (R85). -/
theorem effectiveAddress_izy {b : Byte} {base : Word} {s t : State} (h : read16zp b s = .ok (base, t)) :
    effectiveAddress (.izy b) s = .ok (base + t.y.zeroExtend 16, t) :=
  bind_ok.mpr ⟨_, h, rfl⟩

/-- A sum with an index register wraps at 65536. -/
theorem indexed_toNat (base : Word) (index : Byte) :
    (base + index.zeroExtend 16).toNat = (base.toNat + index.toNat) % 65536 := by
  rw [BitVec.toNat_add, BitVec.zeroExtend_eq_setWidth, BitVec.toNat_setWidth_of_le (by decide)]

/-- Settles O14: form by form; the zero-page sums are sums of bytes, the others `indexed_toNat`, and the pointer reads leave Y. -/
theorem effectiveAddresses : Obligations.EffectiveAddresses := by
  intro s b a
  refine ⟨⟨_, rfl, zeroPage_toNat b⟩, ⟨_, rfl, ?_⟩, ⟨_, rfl, ?_⟩, rfl, ⟨_, rfl, indexed_toNat a s.x⟩,
    ⟨_, rfl, indexed_toNat a s.y⟩, fun z base t hz hread => ?_, fun base t hread => ?_⟩
  · exact (zeroPage_toNat (b + s.x)).trans (BitVec.toNat_add b s.x)
  · exact (zeroPage_toNat (b + s.y)).trans (BitVec.toNat_add b s.y)
  · have hsum : z = b + s.x := BitVec.eq_of_toNat_eq (hz.trans (BitVec.toNat_add b s.x).symm)
    rwa [hsum] at hread
  · obtain ⟨n, rfl⟩ := read16zp_frame hread
    exact ⟨_, effectiveAddress_izy hread, indexed_toNat base s.y⟩

/-- Settles O15: an operand in memory is the read at the effective address, and no operand changes more than the count
(`operand_frame`). -/
theorem operandReads : Obligations.OperandReads := by
  refine ⟨fun b s => rfl, fun m s t ea hea => ?_, fun f s t m h => ?_⟩
  · show (effectiveAddress m s >>= fun r => readByte r.1 r.2) = _
    rw [hea]
    rfl
  · obtain ⟨n, rfl⟩ := operand_frame h
    rfl

/-! The target of `JMP (Oper)`, once the low byte has been read (R83). -/

section
variable {ptr : Word} {s s₁ s₂ : State} {lo hi : Byte}

theorem indirectTarget_unset (hlo : readByte ptr s = .ok (lo, s₁)) (hptr : loByte ptr = 0xFF)
    (hwrap : s₁.par.jmpIndPageWrap = .unset) : indirectTarget ptr s = .error (.jmpIndirectPageEnd ptr) := by
  refine bind_error.mpr (.inr ⟨_, hlo, ?_⟩)
  simp only [hptr, hwrap, ne_eq, not_true_eq_false, if_false]

theorem indirectTarget_samePage (hlo : readByte ptr s = .ok (lo, s₁)) (hptr : loByte ptr = 0xFF)
    (hwrap : s₁.par.jmpIndPageWrap = .samePage) (hhi : readByte (wordOf (hiByte ptr) 0x00) s₁ = .ok (hi, s₂)) :
    indirectTarget ptr s = .ok (wordOf hi lo, s₂) := by
  refine bind_ok.mpr ⟨_, hlo, ?_⟩
  simp only [hptr, hwrap, ne_eq, not_true_eq_false, if_false]
  exact bind_ok.mpr ⟨_, hhi, rfl⟩

theorem indirectTarget_nextPage (hlo : readByte ptr s = .ok (lo, s₁)) (hptr : loByte ptr = 0xFF)
    (hwrap : s₁.par.jmpIndPageWrap = .nextPage) (hhi : readByte (ptr + 1) s₁ = .ok (hi, s₂)) :
    indirectTarget ptr s = .ok (wordOf hi lo, s₂) := by
  refine bind_ok.mpr ⟨_, hlo, ?_⟩
  simp only [hptr, hwrap, ne_eq, not_true_eq_false, if_false]
  exact bind_ok.mpr ⟨_, hhi, rfl⟩

theorem indirectTarget_inPage (hlo : readByte ptr s = .ok (lo, s₁)) (hptr : loByte ptr ≠ 0xFF)
    (hhi : readByte (ptr + 1) s₁ = .ok (hi, s₂)) : indirectTarget ptr s = .ok (wordOf hi lo, s₂) := by
  refine bind_ok.mpr ⟨_, hlo, ?_⟩
  simp only [if_pos hptr]
  exact bind_ok.mpr ⟨_, hhi, rfl⟩

end

/-- Settles O16: the four cases of R83; the read of the low byte leaves the parameter. -/
theorem indirectJumpTarget : Obligations.IndirectJumpTarget := by
  intro ptr s s₁ lo hlo
  have hpar : s₁.par = s.par := (Keeps.of_frame (readByte_frame hlo)).par
  rw [← hpar]
  refine ⟨indirectTarget_unset hlo, fun high hi s₂ hhi => ⟨?_, ?_, ?_⟩⟩
  · rintro hptr rfl
    exact indirectTarget_inPage hlo hptr hhi
  · rintro hptr hwrap rfl
    exact indirectTarget_samePage hlo hptr hwrap hhi
  · rintro hptr hwrap rfl
    exact indirectTarget_nextPage hlo hptr hwrap hhi

/-! Branch targets. -/

/-- The displacement a byte stands for under each encoding, as an integer (R86, C20). -/
def displacementInt (enc : RelOffsetEncoding) (b : Byte) : Int :=
  match enc with
  | .twosComplement => b.toInt
  | .signMagnitude => if b.toNat < 128 then (b.toNat : Int) else 128 - b.toNat

theorem displacement_eq_ofInt (enc : RelOffsetEncoding) (b : Byte) :
    displacement enc b = BitVec.ofInt 16 (displacementInt enc b) := by
  cases enc with
  | twosComplement => rfl
  | signMagnitude =>
    have hmagnitude : (b &&& 0x7F).zeroExtend 16 = BitVec.ofInt 16 (b.toNat % 128 : Nat) := by
      rw [BitVec.ofInt_natCast, BitVec.zeroExtend_eq_setWidth, ← BitVec.ofNat_toNat, BitVec.toNat_and]
      exact congrArg _ (Nat.and_two_pow_sub_one_eq_mod b.toNat 7)
    have hlt := b.isLt
    simp only [displacement, displacementInt, hmagnitude, BitVec.msb_eq_decide, decide_eq_true_eq, ← BitVec.ofInt_neg,
      ← apply_ite]
    congr 1
    split <;> split <;> omega

/-- A branch goes to `npc` plus its displacement, modulo 65536 (R195). -/
theorem branchTarget_toNat (enc : RelOffsetEncoding) (pc : Word) (b : Byte) :
    ((branchTarget enc pc b).toNat : Int) = ((pc.toNat : Int) + 2 + displacementInt enc b) % 65536 := by
  have htwo : (2 : Word).toNat = 2 := rfl
  rw [branchTarget, displacement_eq_ofInt, BitVec.toNat_add, BitVec.toNat_add, BitVec.toNat_ofInt, htwo]
  omega

/-- Below 128 the two encodings are one. -/
theorem displacementInt_eq_of_lt {b : Byte} (h : b.toNat < 128) :
    displacementInt .twosComplement b = displacementInt .signMagnitude b := by
  rw [displacementInt, displacementInt, if_pos h, BitVec.toInt_eq_toNat_of_lt (by omega)]

/-- Settles O17: `branchTarget_toNat` at each encoding. -/
theorem branchTargets : Obligations.BranchTargets := by
  intro pc b
  refine ⟨branchTarget_toNat .twosComplement pc b, branchTarget_toNat .signMagnitude pc b, fun h => ?_⟩
  rw [branchTarget, branchTarget, displacement_eq_ofInt, displacement_eq_ofInt, displacementInt_eq_of_lt h]

/-- The low byte of a sign extension is the byte. -/
theorem setWidth_signExtend (b : Byte) : (b.signExtend 16).setWidth 8 = b := by
  refine BitVec.eq_of_getLsbD_eq fun k hk => ?_
  have hk' : k < 16 := by omega
  simp only [BitVec.getLsbD_setWidth, BitVec.getLsbD_signExtend, hk, hk', decide_true, Bool.true_and, if_true]

/-- Settles O18: a byte reaches the target exactly where its sign extension is the distance, of which it is then the low byte. -/
theorem assembledBranchReachesItsTarget : Obligations.AssembledBranchReachesItsTarget := by
  intro pc target b
  have hreach : branchTarget .twosComplement pc b = target ↔ b.signExtend 16 = target - (pc + 2) := by
    rw [branchTarget, displacement, eq_sub_iff_add_eq']
  rw [hreach, displacementTo, Option.ite_none_right_eq_some, Option.some_inj]
  constructor
  · rintro ⟨hd, rfl⟩
    exact hd
  · intro hd
    rw [← hd, setWidth_signExtend]
    exact ⟨rfl, rfl⟩

/-! The accumulator shifts. -/

/-- A shift or rotate of the accumulator (R75, R175). -/
theorem runModify_shiftWith_acc (shift : Byte → Bool → Byte × Bool) (s : State) :
    runModify (shiftWith shift) .acc s = .next { s with
      a := (shift s.a s.p.c).1
      p := { s.p with n := (shift s.a s.p.c).1.msb, z := (shift s.a s.p.c).1 == 0, c := (shift s.a s.p.c).2 }
      pc := s.pc + 1 } := rfl

/-- Settles O33: each of the four is its byte function on the accumulator. -/
theorem accumulatorShifts : Obligations.AccumulatorShifts := by
  intro s i r hrow
  simp only [List.mem_cons, Prod.mk.injEq, List.not_mem_nil, or_false] at hrow
  obtain ⟨rfl, rfl⟩ | ⟨rfl, rfl⟩ | ⟨rfl, rfl⟩ | ⟨rfl, rfl⟩ := hrow
  · exact runModify_shiftWith_acc aslByte s
  · exact runModify_shiftWith_acc lsrByte s
  · exact runModify_shiftWith_acc rolByte s
  · exact runModify_shiftWith_acc rorByte s

/-! Cycle counts. -/

/-- The rows of R295 whose counts depend on nothing but the instruction: mnemonics, and the count of each of their forms. -/
def fixedCycles : List (List String × List (Form × Nat)) :=
  [(["ADC", "AND", "CMP", "EOR", "LDA", "ORA", "SBC"], [(.imm, 2), (.zp, 3), (.zpx, 4), (.abs, 4), (.izx, 6)]),
    (["ASL", "LSR", "ROL", "ROR"], [(.acc, 2), (.zp, 5), (.zpx, 6), (.abs, 6), (.abx, 7)]),
    (["BIT"], [(.zp, 3), (.abs, 4)]),
    (["CPX", "CPY"], [(.imm, 2), (.zp, 3), (.abs, 4)]),
    (["DEC", "INC"], [(.zp, 5), (.zpx, 6), (.abs, 6), (.abx, 7)]),
    (["JMP"], [(.abs, 3), (.ind, 5)]),
    (["JSR"], [(.abs, 6)]),
    (["LDX"], [(.imm, 2), (.zp, 3), (.zpy, 4), (.abs, 4)]),
    (["LDY"], [(.imm, 2), (.zp, 3), (.zpx, 4), (.abs, 4)]),
    (["STA"], [(.zp, 3), (.zpx, 4), (.abs, 4), (.abx, 5), (.aby, 5), (.izx, 6), (.izy, 6)]),
    (["STX"], [(.zp, 3), (.zpy, 4), (.abs, 4)]),
    (["STY"], [(.zp, 3), (.zpx, 4), (.abs, 4)]),
    (["CLC", "CLD", "CLI", "CLV", "SEC", "SED", "SEI", "NOP", "DEX", "DEY", "INX", "INY", "TAX", "TAY", "TSX", "TXA", "TXS",
      "TYA"], [(.imp, 2)]),
    (["PHA", "PHP"], [(.imp, 3)]), (["PLA", "PLP"], [(.imp, 4)]), (["RTS", "RTI"], [(.imp, 6)]), (["BRK"], [(.imp, 7)])]

/-- Every row of `fixedCycles` that lists the mnemonic of `i` gives its form the count of `i`. -/
def CountIsInTable (i : Instr) (s : State) : Prop :=
  ∀ row ∈ fixedCycles, mnemonic i ∈ row.1 → ∀ e ∈ row.2, formOf i = some e.1 → instrCycles i s = some e.2

/-- No mnemonic stands in two rows. -/
theorem fixedCycles_row_unique :
    ∀ row ∈ fixedCycles, ∀ row' ∈ fixedCycles, ∀ name ∈ row.1, name ∈ row'.1 → row = row' := by
  decide

/-- So the one row with the mnemonic of `i` is the one to compare; whether it is and agrees is a computation. -/
theorem countIsInTable_of_row {i : Instr} {s : State} (k : Fin 17)
    (h : decide (mnemonic i ∈ (fixedCycles.get k).1 ∧
      ∀ e ∈ (fixedCycles.get k).2, formOf i = some e.1 → instrCycles i s = some e.2) = true) : CountIsInTable i s := by
  obtain ⟨hname, hcount⟩ := of_decide_eq_true h
  intro row hrow hname'
  rw [fixedCycles_row_unique row hrow _ (List.get_mem ..) _ hname' hname]
  exact hcount

/-- No row has a count of a branch. -/
theorem countIsInTable_of_rel {i : Instr} {s : State} (h : formOf i = some .rel) : CountIsInTable i s := by
  have hrel : ∀ row ∈ fixedCycles, ∀ e ∈ row.2, e.1 ≠ .rel := by decide
  intro row hrow _ e he hform
  rw [h, Option.some_inj] at hform
  exact absurd hform.symm (hrel row hrow e he)

/-- The counts of R295, with the instructions of each row of `fixedCycles` together. -/
theorem countIsInTable (i : Instr) (s : State) : CountIsInTable i s := by
  cases i with
  | bcc | bcs | beq | bmi | bne | bpl | bvc | bvs => exact countIsInTable_of_rel rfl
  | reserved => exact fun _ _ _ _ _ h => nomatch h
  | aslAcc | aslZp | aslZpx | aslAbs | aslAbx | lsrAcc | lsrZp | lsrZpx | lsrAbs | lsrAbx | rolAcc | rolZp | rolZpx | rolAbs
  | rolAbx | rorAcc | rorZp | rorZpx | rorAbs | rorAbx => exact countIsInTable_of_row 1 rfl
  | bitZp | bitAbs => exact countIsInTable_of_row 2 rfl
  | cpxImm | cpxZp | cpxAbs | cpyImm | cpyZp | cpyAbs => exact countIsInTable_of_row 3 rfl
  | decZp | decZpx | decAbs | decAbx | incZp | incZpx | incAbs | incAbx => exact countIsInTable_of_row 4 rfl
  | jmpAbs | jmpInd => exact countIsInTable_of_row 5 rfl
  | jsr => exact countIsInTable_of_row 6 rfl
  | ldxImm | ldxZp | ldxZpy | ldxAbs | ldxAby => exact countIsInTable_of_row 7 rfl
  | ldyImm | ldyZp | ldyZpx | ldyAbs | ldyAbx => exact countIsInTable_of_row 8 rfl
  | staZp | staZpx | staAbs | staAbx | staAby | staIzx | staIzy => exact countIsInTable_of_row 9 rfl
  | stxZp | stxZpy | stxAbs => exact countIsInTable_of_row 10 rfl
  | styZp | styZpx | styAbs => exact countIsInTable_of_row 11 rfl
  | clc | cld | cli | clv | sec | sed | sei | nop | dex | dey | inx | iny | tax | tay | tsx | txa | txs
  | tya => exact countIsInTable_of_row 12 rfl
  | pha | php => exact countIsInTable_of_row 13 rfl
  | pla | plp => exact countIsInTable_of_row 14 rfl
  | rts | rti => exact countIsInTable_of_row 15 rfl
  | brk => exact countIsInTable_of_row 16 rfl
  | _ => exact countIsInTable_of_row 0 rfl

/-- An index crosses a page exactly where the low byte of the sum carries (R89). -/
theorem cyclesIndexed_eq (count : Nat) (base : Word) (index : Byte) :
    cyclesIndexed count base index = some (if (loByte base).toNat + index.toNat > 0xFF then count + 1 else count) := by
  have hcross : pageCrossed base index = decide ((loByte base).toNat + index.toNat > 0xFF) := by
    rw [pageCrossed, Bool.eq_iff_iff, bne_iff_ne, decide_eq_true_iff, ne_eq, BitVec.toNat_eq, hiByte_toNat, hiByte_toNat,
      loByte_toNat, indexed_toNat]
    omega
  rw [cyclesIndexed, hcross]
  simp only [decide_eq_true_eq]

theorem cyclesIzy_eq {b : Byte} {base : Word} {s t : State} (h : read16zp b s = .ok (base, t)) :
    cyclesIzy b s = cyclesIndexed 5 base s.y := by
  rw [cyclesIzy, h]

/-- The reads that R295 marks `+p`. -/
theorem instrCycles_indexed (i : Instr) (s : State)
    (hi : mnemonic i ∈ ["ADC", "AND", "CMP", "EOR", "LDA", "LDX", "LDY", "ORA", "SBC"]) :
    (∀ a, memFormOf i = some (.abx a) → instrCycles i s = cyclesIndexed 4 a s.x) ∧
      (∀ a, memFormOf i = some (.aby a) → instrCycles i s = cyclesIndexed 4 a s.y) ∧
      ∀ b, memFormOf i = some (.izy b) → instrCycles i s = cyclesIzy b s := by
  cases i <;> simp_all [mnemonic, memFormOf, instrCycles]

theorem cyclesBranch_eq (taken : Bool) (b : Byte) (s : State) :
    cyclesBranch taken b s = some (if taken = false then 2 else
      if hiByte (branchTarget s.par.relOffset s.pc b) = hiByte (s.pc + 2) then 3 else 4) := by
  cases taken <;> simp [cyclesBranch, apply_ite some]

/-- Settles O60: the fixed counts row by row, the `+p` reads by the carry of the index, the branches by `cyclesBranch_eq`. -/
theorem cycleCounts : Obligations.CycleCounts := by
  refine ⟨fun i s names row f n hrow hname hform hn => countIsInTable i s (names, row) hrow hname (f, n) hn hform,
    fun i s hi => ?_, fun i b taken s hrow => ?_⟩
  · obtain ⟨habx, haby, hizy⟩ := instrCycles_indexed i s hi
    refine ⟨fun a ha => ?_, fun a ha => ?_, fun b base t hb hread => ?_⟩
    · rw [habx a ha, cyclesIndexed_eq]
    · rw [haby a ha, cyclesIndexed_eq]
    · rw [hizy b hb, cyclesIzy_eq hread, cyclesIndexed_eq]
  · rw [← cyclesBranch_eq]
    simp only [List.mem_cons, Prod.mk.injEq, List.not_mem_nil, or_false] at hrow
    obtain ⟨rfl, rfl⟩ | ⟨rfl, rfl⟩ | ⟨rfl, rfl⟩ | ⟨rfl, rfl⟩ | ⟨rfl, rfl⟩ | ⟨rfl, rfl⟩ | ⟨rfl, rfl⟩ | ⟨rfl, rfl⟩ := hrow <;> rfl

end Sys2Proof.Machine

/-! Loads and stores (R120 to R126): what the two shapes do once their operand, or their address, is known. -/

namespace Sys2Proof.Machine

section
variable {f : ReadForm} {m : MemForm} {s s₁ : State} {v : Byte} {ea : Word}

/-- Once its operand is known, a reading instruction does its update and goes on; the reads move only the count
of free values. -/
theorem runRead_of_operand {update : Byte → State → State} (h : operand f s = .ok (v, s₁)) :
    runRead update f s = .next ((update v (s.setDraws s₁.draws)).advance f.length) := by
  obtain ⟨n, rfl⟩ := operand_frame h
  exact runRead_next.mpr ⟨v, _, h, rfl⟩

theorem runStore_io (hea : effectiveAddress m s = .ok (ea, s₁)) (hio : s.isIo ea = true) :
    runStore v m s = .refused (.ioRegion ea) := by
  obtain ⟨n, rfl⟩ := effectiveAddress_frame hea
  exact outcome_refused.mpr (bind_error.mpr (.inr ⟨_, hea, bind_error.mpr (.inl (writeByte_io hio))⟩))

/-- The instruction stores `v` at `ea`: it is refused where a device is, and else changes the byte there, where RAM is, PC and the
count of free values only (R120). -/
def StoresByte (i : Instr) (v : Byte) (m : MemForm) (ea : Word) (s s₁ : State) : Prop :=
  (s.isIo ea = true → exec i s = .refused (.ioRegion ea)) ∧
    (s.isIo ea = false → ∃ t, exec i s = .next t ∧
      t = { s with mem := t.mem, pc := s.pc + m.length, draws := s₁.draws } ∧
      (s.kindAt ea = .ram → t.mem.read ea.toNat = v) ∧ (s.kindAt ea ≠ .ram → t.mem = s.mem) ∧
      ∀ c, c ≠ ea.toNat → t.mem.read c = s.mem.read c)

theorem storesByte_of_runStore {i : Instr} (hexec : exec i s = runStore v m s)
    (hea : effectiveAddress m s = .ok (ea, s₁)) : StoresByte i v m ea s s₁ := by
  rw [StoresByte, hexec]
  refine ⟨runStore_io hea, fun hio => ?_⟩
  obtain ⟨n, rfl⟩ := effectiveAddress_frame hea
  obtain ⟨mem, hw, hresult⟩ := writeByte_result (s := s.setDraws n) v hio
  exact ⟨_, runStore_next.mpr ⟨ea, _, _, hea, hw, rfl⟩, rfl, hresult⟩

end

/-- Settles O19: row by row, the instruction reads the operand of its row, and its update writes the register, N and Z. -/
theorem loadsReadTheirOperand : Obligations.LoadsReadTheirOperand := by
  refine fun b a i f s s₁ m hop => ⟨fun hrow => ?_, fun hrow => ?_, fun hrow => ?_⟩
  · iterate 8
      obtain h | hrow := List.mem_cons.mp hrow
      · cases h
        exact (runRead_of_operand hop : lda _ s = _)
    cases hrow
  · iterate 5
      obtain h | hrow := List.mem_cons.mp hrow
      · cases h
        exact (runRead_of_operand hop : ldx _ s = _)
    cases hrow
  · iterate 5
      obtain h | hrow := List.mem_cons.mp hrow
      · cases h
        exact (runRead_of_operand hop : ldy _ s = _)
    cases hrow

/-- Settles O20: row by row, the instruction is the store of its register at the address of its row. -/
theorem storesWriteTheirRegister : Obligations.StoresWriteTheirRegister := by
  intro b a s s₁ i v m ea hrow hea
  iterate 13
    obtain h | hrow := List.mem_cons.mp hrow
    · cases h
      exact storesByte_of_runStore rfl hea
  cases hrow

end Sys2Proof.Machine

/-! Transfers and register increments (R130 to R136, R185 to R191): a byte of the state goes to A, X or Y, with N and Z. -/

namespace Sys2Proof.Machine

section
variable (r : State → Byte) (s : State)

theorem runImplied_setNZ_setA :
    runImplied (fun s => (s.setP (s.p.setNZ (r s))).setA (r s)) s =
      .next { s with a := r s, p := { s.p with n := (r s).msb, z := r s == 0 }, pc := s.pc + 1 } :=
  runImplied_next _ s

theorem runImplied_setNZ_setX :
    runImplied (fun s => (s.setP (s.p.setNZ (r s))).setX (r s)) s =
      .next { s with x := r s, p := { s.p with n := (r s).msb, z := r s == 0 }, pc := s.pc + 1 } :=
  runImplied_next _ s

theorem runImplied_setNZ_setY :
    runImplied (fun s => (s.setP (s.p.setNZ (r s))).setY (r s)) s =
      .next { s with y := r s, p := { s.p with n := (r s).msb, z := r s == 0 }, pc := s.pc + 1 } :=
  runImplied_next _ s

end

/-- Settles O21: TXS writes SP alone; each of the others writes one register and N and Z, with the byte named in its row. -/
theorem registerInstructions : Obligations.RegisterInstructions := by
  intro s
  refine ⟨?tax, ?tay, ?tsx, ?txa, ?txs, ?tya, ?inx, ?iny, ?dex, ?dey⟩
  case tax => exact runImplied_setNZ_setX (fun s => s.a) s
  case tay => exact runImplied_setNZ_setY (fun s => s.a) s
  case tsx => exact runImplied_setNZ_setX (fun s => s.sp) s
  case txa => exact runImplied_setNZ_setA (fun s => s.x) s
  case txs => exact runImplied_next (fun s => s.setSp s.x) s
  case tya => exact runImplied_setNZ_setA (fun s => s.y) s
  case inx => exact runImplied_setNZ_setX (fun s => s.x + 1) s
  case iny => exact runImplied_setNZ_setY (fun s => s.y + 1) s
  case dex => exact runImplied_setNZ_setX (fun s => s.x - 1) s
  case dey => exact runImplied_setNZ_setY (fun s => s.y - 1) s

end Sys2Proof.Machine

/-! Arithmetic and compare (R150 to R157): the adder and the subtracter as arithmetic, the decimal parameters, and what the
instructions write. -/

namespace Sys2Proof.Machine

/-! The binary adder and subtracter (R156). -/

theorem msb_ofNat_eq_testBit (t : Nat) : (BitVec.ofNat 8 t).msb = t.testBit 7 := by
  rw [BitVec.msb_eq_getLsbD_last, BitVec.getLsbD_ofNat]
  rfl

theorem ofNat_eq_zero_iff (t : Nat) : BitVec.ofNat 8 t = 0 ↔ t % 256 = 0 := by
  rw [BitVec.toNat_eq, BitVec.toNat_ofNat]
  rfl

theorem byte_msb_eq (b : Byte) : b.msb = decide (128 ≤ b.toNat) := BitVec.msb_eq_decide b

/-- V of a sum: the operands have one sign and the result has the other (R150). -/
theorem overflow_iff_signs (a m r : Byte) :
    (!(a ^^^ m).msb && (a ^^^ r).msb) = true ↔ a.msb = m.msb ∧ r.msb ≠ a.msb := by
  rw [BitVec.msb_xor, BitVec.msb_xor]
  cases a.msb <;> cases m.msb <;> simp

/-- The signs say that the signed sum with the carry is no byte. -/
theorem signs_iff_signed_sum_out_of_range {a m r : Byte} {c : Bool} (hr : r.toNat = (a.toNat + m.toNat + c.toNat) % 256) :
    a.msb = m.msb ∧ r.msb ≠ a.msb ↔
      ¬ (-128 ≤ a.toInt + m.toInt + c.toNat ∧ a.toInt + m.toInt + c.toNat ≤ 127) := by
  have ha := a.isLt
  have hm := m.isLt
  have hc := c.toNat_lt
  simp only [byte_msb_eq, decide_eq_decide, ne_eq, BitVec.toInt_eq_toNat_cond]
  omega

theorem adcBinary_value_toNat (a m : Byte) (c : Bool) :
    (adcBinary a m c).value.toNat = (a.toNat + m.toNat + c.toNat) % 256 :=
  BitVec.toNat_ofNat ..

/-- Settles O25: V is `overflow_iff_signs` of the sum modulo 256, and the other flags are read from the sum. -/
theorem adcBinaryIsAddition : Obligations.AdcBinaryIsAddition := by
  refine fun a m c => ⟨adcBinary_value_toNat a m c, decide_eq_true_iff, ?_, (msb_ofNat_eq_testBit _).symm, ?_⟩
  · exact (overflow_iff_signs a m _).trans (signs_iff_signed_sum_out_of_range (adcBinary_value_toNat a m c))
  · exact beq_iff_eq.trans (ofNat_eq_zero_iff _).symm

theorem complement_toNat (m : Byte) : (m ^^^ 0xFF).toNat = 255 - m.toNat := by
  have hcomplement : m ^^^ 0xFF = ~~~m := BitVec.xor_allOnes
  rw [hcomplement, BitVec.toNat_not]

theorem complement_msb (m : Byte) : (m ^^^ 0xFF).msb = !m.msb := by
  rw [BitVec.msb_xor]
  exact Bool.xor_true _

/-- Modulo 256 the difference is the sum with the complement. -/
theorem ofInt_difference_eq_ofNat_sum (a m : Byte) (c : Bool) :
    BitVec.ofInt 8 ((a.toNat : Int) - m.toNat - (1 - c.toNat)) =
      BitVec.ofNat 8 (a.toNat + (m ^^^ 0xFF).toNat + c.toNat) := by
  have hm := m.isLt
  apply BitVec.eq_of_toNat_eq
  rw [BitVec.toNat_ofInt, BitVec.toNat_ofNat, complement_toNat]
  omega

/-- Settles O27: both have the byte of `ofInt_difference_eq_ofNat_sum`, and a borrow is no carry. -/
theorem sbcIsAdcOfTheComplement : Obligations.SbcIsAdcOfTheComplement := by
  intro a m c
  have hm := m.isLt
  have hcomplement := complement_toNat m
  rw [sbcBinary, adcBinary, AluResult.mk.injEq, ofInt_difference_eq_ofNat_sum]
  refine ⟨rfl, msb_ofNat_eq_testBit _, ?overflow, ?zero, ?carry⟩
  case overflow =>
    rw [BitVec.msb_xor (y := m ^^^ 0xFF), complement_msb, Bool.xor_not, Bool.not_not, ← BitVec.msb_xor, Bool.and_comm]
  case zero =>
    rw [Bool.eq_iff_iff, beq_iff_eq, beq_iff_eq]
    omega
  case carry =>
    rw [decide_eq_decide]
    have ha := a.isLt
    have hc := c.toNat_lt
    omega

/-- Settles O26: the laws of the sum (O25) at the complement, which is `-1 - m` as a signed number. -/
theorem sbcBinaryIsSubtraction : Obligations.SbcBinaryIsSubtraction := by
  intro a m c
  have hm := m.isLt
  have hcomplement := complement_toNat m
  have hsigned : (m ^^^ 0xFF).toInt = -1 - m.toInt := by
    rw [BitVec.toInt_eq_toNat_cond, BitVec.toInt_eq_toNat_cond]
    omega
  obtain ⟨hvalue, hcarry, hoverflow, hn, hz⟩ := adcBinaryIsAddition a (m ^^^ 0xFF) c
  rw [sbcIsAdcOfTheComplement a m c]
  refine ⟨?_, hcarry.trans ?_, hoverflow.trans ?_, hn, hz⟩ <;> omega

/-! The decimal adder and subtracter. -/

/-- The byte is valid BCD, with these digits. -/
structure HasDigits (b : Byte) (hi lo : Nat) : Prop where
  toNat_eq : b.toNat = 16 * hi + lo
  hi_le : hi ≤ 9
  lo_le : lo ≤ 9

theorem invalidBcd_eq_false_iff (b : Byte) : invalidBcd b = false ↔ ∃ hi lo, HasDigits b hi lo := by
  rw [invalidBcd, Bool.or_eq_false_iff, decide_eq_false_iff_not, decide_eq_false_iff_not]
  constructor
  · rintro ⟨hlo, hhi⟩
    exact ⟨b.toNat / 16, b.toNat % 16, (Nat.div_add_mod ..).symm, Nat.not_lt.mp hhi, Nat.not_lt.mp hlo⟩
  · rintro ⟨hi, lo, hb, hhi, hlo⟩
    omega

theorem HasDigits.bcdValue_eq {b : Byte} {hi lo : Nat} (h : HasDigits b hi lo) : bcdValue b = 10 * hi + lo := by
  obtain ⟨hb, hhi, hlo⟩ := h
  rw [bcdValue]
  omega

theorem mod_ten_of_lt_twenty {n : Nat} (h : n < 20) : n % 10 = if n ≥ 10 then n - 10 else n := by
  split <;> omega

/-- The binary sum after the correction of its low digit (R150). -/
def lowCorrectedSum (a m : Byte) (c : Bool) : Nat :=
  a.toNat + m.toNat + c.toNat + if a.toNat % 16 + m.toNat % 16 + c.toNat > 9 then 6 else 0

/-- The decimal sum has the Z of the binary one; the rest is read from `lowCorrectedSum` (R150). -/
theorem adcDecimal_eq (a m : Byte) (c : Bool) : adcDecimal a m c =
    { adcBinary a m c with
      value := BitVec.ofNat 8 (lowCorrectedSum a m c + if lowCorrectedSum a m c > 0x99 then 0x60 else 0)
      n := (lowCorrectedSum a m c).testBit 7
      v := !(a ^^^ m).msb && (a ^^^ BitVec.ofNat 8 (lowCorrectedSum a m c)).msb
      c := decide (lowCorrectedSum a m c > 0x99) } := by
  have hlow : (if a.toNat % 16 + m.toNat % 16 + c.toNat > 9 then a.toNat + m.toNat + c.toNat + 6
      else a.toNat + m.toNat + c.toNat) = lowCorrectedSum a m c := by
    rw [lowCorrectedSum]
    split <;> rfl
  rw [adcDecimal, adcBinary, hlow, AluResult.mk.injEq]
  refine ⟨?_, rfl, rfl, rfl, ?_⟩
  · congr 1
    split <;> rfl
  · rw [decide_eq_decide]
    split <;> omega

theorem adcDecimal_c_iff (a m : Byte) (c : Bool) : (adcDecimal a m c).c = true ↔ lowCorrectedSum a m c > 0x99 := by
  rw [adcDecimal_eq]
  exact decide_eq_true_iff

theorem adcDecimal_value_toNat (a m : Byte) (c : Bool) : (adcDecimal a m c).value.toNat =
    (lowCorrectedSum a m c + if lowCorrectedSum a m c > 0x99 then 0x60 else 0) % 256 := by
  rw [adcDecimal_eq]
  exact BitVec.toNat_ofNat ..

/-- On valid BCD the correction by 6 carries from the sum `lo` of the low digits to the sum `hi` of the high ones, and that by
0x60 takes ten from `hi`. -/
theorem adcDecimal_digits {a m : Byte} {c : Bool} {ahi alo mhi mlo lo hi : Nat} (ha : HasDigits a ahi alo)
    (hm : HasDigits m mhi mlo) (hlo : lo = alo + mlo + c.toNat) (hhi : hi = ahi + mhi + lo / 10) :
    HasDigits (adcDecimal a m c).value (hi % 10) (lo % 10) ∧ ((adcDecimal a m c).c = true ↔ hi ≥ 10) := by
  obtain ⟨ha, hahi, halo⟩ := ha
  obtain ⟨hm, hmhi, hmlo⟩ := hm
  have hc := c.toNat_lt
  have hlow : lowCorrectedSum a m c = 16 * hi + lo % 10 := by
    have hdigits : a.toNat % 16 + m.toNat % 16 + c.toNat = lo := by omega
    rw [lowCorrectedSum, hdigits]
    split <;> omega
  have hten : 16 * hi + lo % 10 > 0x99 ↔ hi ≥ 10 := by omega
  rw [adcDecimal_c_iff, hlow]
  refine ⟨⟨?_, by omega, by omega⟩, hten⟩
  rw [adcDecimal_value_toNat, hlow, mod_ten_of_lt_twenty (n := hi) (by omega)]
  simp only [hten]
  split <;> omega

/-- Settles O28: the digits of `adcDecimal_digits` make the sum of the decimal numbers, and the formulas are those of
`adcDecimal_eq`. -/
theorem adcDecimalAddsBcd : Obligations.AdcDecimalAddsBcd := by
  constructor
  · intro a m c ha hm
    obtain ⟨ahi, alo, ha⟩ := (invalidBcd_eq_false_iff a).mp ha
    obtain ⟨mhi, mlo, hm⟩ := (invalidBcd_eq_false_iff m).mp hm
    obtain ⟨hdigits, hcarry⟩ := adcDecimal_digits ha hm (c := c) rfl rfl
    refine ⟨(invalidBcd_eq_false_iff _).mpr ⟨_, _, hdigits⟩, ?_, hcarry.trans ?_⟩
    · rw [hdigits.bcdValue_eq, ha.bcdValue_eq, hm.bcdValue_eq]
      omega
    · rw [ha.bcdValue_eq, hm.bcdValue_eq]
      omega
  · rintro a m c low rfl
    refine ⟨?_, ?_, ?_, adcDecimal_c_iff a m c, adcDecimal_value_toNat a m c⟩ <;> rw [adcDecimal_eq]
    · rw [← msb_ofNat_eq_testBit, byte_msb_eq, decide_eq_true_iff, BitVec.toNat_ofNat]
      rfl
    · rw [overflow_iff_signs, msb_ofNat_eq_testBit]

/-- The binary difference after the correction of its low digit (R151). -/
def lowCorrectedDifference (a m : Byte) (c : Bool) : Int :=
  (a.toNat : Int) - m.toNat - (1 - c.toNat) - if a.toNat % 16 + c.toNat < m.toNat % 16 + 1 then 6 else 0

/-- The decimal difference has the N, V and Z of the binary one; A and C are read from `lowCorrectedDifference` (R151). -/
theorem sbcDecimal_eq (a m : Byte) (c : Bool) : sbcDecimal a m c =
    { sbcBinary a m c with
      value := BitVec.ofInt 8 (lowCorrectedDifference a m c -
        if lowCorrectedDifference a m c < 0 ∨ lowCorrectedDifference a m c > 0x99 then 0x60 else 0)
      c := decide (lowCorrectedDifference a m c ≥ 0) } := by
  have hborrow : (a.toNat % 16 : Int) - (1 - c.toNat) < (m.toNat % 16 : Int) ↔
      a.toNat % 16 + c.toNat < m.toNat % 16 + 1 := by
    omega
  have hlow : (if (a.toNat % 16 : Int) - (1 - c.toNat) < (m.toNat % 16 : Int)
      then (a.toNat : Int) - m.toNat - (1 - c.toNat) - 6 else (a.toNat : Int) - m.toNat - (1 - c.toNat)) =
      lowCorrectedDifference a m c := by
    simp only [lowCorrectedDifference, hborrow]
    split <;> omega
  have hle : lowCorrectedDifference a m c ≤ 0xFF := by
    have ha := a.isLt
    have hc := c.toNat_lt
    rw [lowCorrectedDifference]
    omega
  rw [sbcDecimal, sbcBinary, hlow, AluResult.mk.injEq]
  refine ⟨?_, rfl, rfl, rfl, ?_⟩
  · congr 1
    split <;> omega
  · rw [decide_eq_decide]
    split <;> omega

theorem sbcDecimal_c_iff (a m : Byte) (c : Bool) :
    (sbcDecimal a m c).c = true ↔ lowCorrectedDifference a m c ≥ 0 := by
  rw [sbcDecimal_eq]
  exact decide_eq_true_iff

theorem sbcDecimal_value_toNat (a m : Byte) (c : Bool) : ((sbcDecimal a m c).value.toNat : Int) =
    (lowCorrectedDifference a m c -
      if lowCorrectedDifference a m c < 0 ∨ lowCorrectedDifference a m c > 0x99 then 0x60 else 0) % 256 := by
  rw [sbcDecimal_eq, BitVec.toNat_ofInt]
  exact Int.toNat_of_nonneg (Int.emod_nonneg _ (by decide))

/-- On valid BCD the difference is the sum with the nines' complement of the operand, digit by digit, less 100: the correction
by 6 is the borrow of the low digit, and that by 0x60 takes the borrow of the high one out. -/
theorem sbcDecimal_digits {a m : Byte} {c : Bool} {ahi alo mhi mlo lo hi : Nat} (ha : HasDigits a ahi alo)
    (hm : HasDigits m mhi mlo) (hlo : lo = alo + (9 - mlo) + c.toNat) (hhi : hi = ahi + (9 - mhi) + lo / 10) :
    HasDigits (sbcDecimal a m c).value (hi % 10) (lo % 10) ∧ ((sbcDecimal a m c).c = true ↔ hi ≥ 10) := by
  obtain ⟨ha, hahi, halo⟩ := ha
  obtain ⟨hm, hmhi, hmlo⟩ := hm
  have hc := c.toNat_lt
  have hlow : lowCorrectedDifference a m c = 16 * ((hi : Int) - 10) + (lo % 10 : Nat) := by
    have hborrow : a.toNat % 16 + c.toNat < m.toNat % 16 + 1 ↔ lo < 10 := by omega
    simp only [lowCorrectedDifference, hborrow]
    split <;> omega
  have hten : 16 * ((hi : Int) - 10) + (lo % 10 : Nat) ≥ 0 ↔ hi ≥ 10 := by omega
  have hvalue := sbcDecimal_value_toNat a m c
  rw [hlow] at hvalue
  rw [sbcDecimal_c_iff, hlow]
  refine ⟨⟨?_, by omega, by omega⟩, hten⟩
  rw [mod_ten_of_lt_twenty (n := hi) (by omega)]
  split <;> split at hvalue <;> omega

/-- Settles O29: the digits of `sbcDecimal_digits` make the difference of the decimal numbers, and the formulas are those of
`sbcDecimal_eq`. -/
theorem sbcDecimalSubtractsBcd : Obligations.SbcDecimalSubtractsBcd := by
  constructor
  · intro a m c ha hm
    obtain ⟨ahi, alo, ha⟩ := (invalidBcd_eq_false_iff a).mp ha
    obtain ⟨mhi, mlo, hm⟩ := (invalidBcd_eq_false_iff m).mp hm
    obtain ⟨hdigits, hborrow⟩ := sbcDecimal_digits ha hm (c := c) rfl rfl
    have hmhi := hm.hi_le
    have hmlo := hm.lo_le
    refine ⟨(invalidBcd_eq_false_iff _).mpr ⟨_, _, hdigits⟩, ?_, hborrow.trans ?_⟩
    · rw [hdigits.bcdValue_eq, ha.bcdValue_eq, hm.bcdValue_eq]
      omega
    · rw [ha.bcdValue_eq, hm.bcdValue_eq]
      omega
  · rintro a m c low rfl
    refine ⟨?_, ?_, ?_, sbcDecimal_c_iff a m c, sbcDecimal_value_toNat a m c⟩ <;> rw [sbcDecimal_eq]

/-! The decimal parameters (R157). -/

section
variable {m : Byte} {r : AluResult} {s : State}

/-- An operand that is not valid BCD, under `draw`. -/
theorem settleDecimal_invalid (hd : s.p.d = true) (hpar : s.par.decimalInvalidBcd = .draw)
    (hbcd : (invalidBcd s.a || invalidBcd m) = true) :
    settleDecimal m r s = ({
      value := Config.freeByte s.draws
      n := Config.freeBit s.draws
      v := Config.freeBit (s.draws + 1)
      z := Config.freeBit (s.draws + 2)
      c := Config.freeBit (s.draws + 3) }, s.setDraws (s.draws + 4)) := by
  rw [settleDecimal, hd, hpar, hbcd]
  rfl

/-- In binary mode, with `DECIMAL_INVALID_BCD` at `formula` and on valid BCD, `DECIMAL_NVZ` alone decides. -/
theorem settleDecimal_nvz
    (h : s.p.d = false ∨ s.par.decimalInvalidBcd = .formula ∨ (invalidBcd s.a || invalidBcd m) = false) :
    settleDecimal m r s = if s.p.d && s.par.decimalNvz == .draw then
      ({ r with
         n := Config.freeBit s.draws
         v := Config.freeBit (s.draws + 1)
         z := Config.freeBit (s.draws + 2) }, s.setDraws (s.draws + 3))
      else (r, s) := by
  rw [settleDecimal, if_neg]
  obtain h | h | h := h <;> simp [h]

theorem settleDecimal_frame {q : AluResult} {t : State} (h : settleDecimal m r s = (q, t)) : ∃ n, t = s.setDraws n := by
  unfold settleDecimal at h
  split_ifs at h <;> cases h
  · exact ⟨_, rfl⟩
  · exact ⟨_, rfl⟩
  · exact ⟨s.draws, rfl⟩

end

/-- Settles O24: `settleDecimal_invalid` where that parameter applies, else `settleDecimal_nvz`, which keeps A and C. -/
theorem decimalParameters : Obligations.DecimalParameters := by
  intro m r s
  have valid (ha : invalidBcd s.a = false) (hm : invalidBcd m = false) : (invalidBcd s.a || invalidBcd m) = false :=
    Bool.or_eq_false_iff.mpr ⟨ha, hm⟩
  refine ⟨fun hd => ?_, fun hnvz hinv => ?_, fun hnvz ha hm => ?_, fun ha hm => ?_, fun hd hnvz h => ?_,
    fun hd hinv h => ?_⟩
  · rw [settleDecimal_nvz (.inl hd), hd]
    rfl
  · rw [settleDecimal_nvz (.inr (.inl hinv)), hnvz, if_neg (by simp)]
  · rw [settleDecimal_nvz (.inr (.inr (valid ha hm))), hnvz, if_neg (by simp)]
  · rw [settleDecimal_nvz (.inr (.inr (valid ha hm)))]
    split
    · exact ⟨_, _, rfl, rfl, rfl, rfl⟩
    · exact ⟨_, _, rfl, rfl, rfl, rfl⟩
  · rw [settleDecimal_nvz (.inr (h.imp_right fun ⟨ha, hm⟩ => valid ha hm)), hd, hnvz]
    rfl
  · exact settleDecimal_invalid hd hinv (Bool.or_eq_true_iff.mpr h)

/-! The instructions. -/

section
variable {f : ReadForm} {m : Byte} {s s₁ s₂ : State} {r : AluResult}

theorem writeAlu_of_settleDecimal {q : AluResult} (h : settleDecimal m r s = (q, s₂)) :
    writeAlu m r s = ((s.setDraws s₂.draws).setP (s.p.setAlu q)).setA q.value := by
  obtain ⟨n, rfl⟩ := settleDecimal_frame h
  rw [writeAlu, h]
  rfl

/-- What ADC and SBC write once their operand is known and the decimal parameters have settled their result. -/
theorem runRead_writeAlu {compute : Byte → State → AluResult} (hop : operand f s = .ok (m, s₁))
    (hsettle : settleDecimal m (compute m s₁) s₁ = (r, s₂)) :
    runRead (fun m s => writeAlu m (compute m s) s) f s = .next { s with
      a := r.value
      p := { s.p with n := r.n, v := r.v, z := r.z, c := r.c }
      pc := s.pc + f.length
      draws := s₂.draws } := by
  obtain ⟨n, rfl⟩ := operand_frame hop
  rw [runRead_of_operand hop, State.setDraws_draws, writeAlu_of_settleDecimal hsettle]
  rfl

theorem Status.setCompare_eq (p : Status) (r m : Byte) : p.setCompare r m =
    { p with n := (r - m).msb, z := decide (r = m), c := decide (r.toNat ≥ m.toNat) } := by
  have hz : (r - m == 0) = decide (r = m) := by
    rw [Bool.eq_iff_iff, beq_iff_eq, decide_eq_true_iff]
    exact sub_eq_zero
  rw [Status.setCompare, Status.setNZ, hz]

/-- What a compare with a register writes once its operand is known. -/
theorem runRead_setCompare {register : State → Byte} {r : Byte} (hop : operand f s = .ok (m, s₁))
    (hr : register (s.setDraws s₁.draws) = r) :
    runRead (fun m s => s.setP (s.p.setCompare (register s) m)) f s = .next { s with
      p := { s.p with n := (r - m).msb, z := decide (r = m), c := decide (r.toNat ≥ m.toNat) }
      pc := s.pc + f.length, draws := s₁.draws } := by
  rw [runRead_of_operand hop, hr, Status.setCompare_eq]
  rfl

end

/-- Settles O23: row by row, the instruction is ADC or SBC with the form of its row (`runRead_writeAlu`). -/
theorem addAndSubtractResults : Obligations.AddAndSubtractResults := by
  intro b a i f add s s₁ s₂ m r hrow hop hsettle
  obtain ⟨n, rfl⟩ := operand_frame hop
  iterate 8
    obtain h | hrow := List.mem_cons.mp hrow
    · cases h
      exact (runRead_writeAlu hop hsettle : adc _ s = _)
  iterate 8
    obtain h | hrow := List.mem_cons.mp hrow
    · cases h
      exact (runRead_writeAlu hop hsettle : sbc _ s = _)
  cases hrow

/-- Settles O30: row by row, the instruction compares the register of its row (`runRead_setCompare`). -/
theorem comparesSetFlagsOnly : Obligations.ComparesSetFlagsOnly := by
  intro b a s s₁ i r f m hrow hop
  iterate 8
    obtain h | hrow := List.mem_cons.mp hrow
    · cases h
      exact (runRead_setCompare hop rfl : cmp _ s = _)
  iterate 3
    obtain h | hrow := List.mem_cons.mp hrow
    · cases h
      exact (runRead_setCompare hop rfl : cpx _ s = _)
  iterate 3
    obtain h | hrow := List.mem_cons.mp hrow
    · cases h
      exact (runRead_setCompare hop rfl : cpy _ s = _)
  cases hrow

end Sys2Proof.Machine

/-! Logic and bit test (R165 to R169): what the two updates write once the operand is known. -/

namespace Sys2Proof.Machine

section
variable {f : ReadForm} {m : Byte} {s s₁ : State}

/-- What an instruction that writes a bitwise result to A does once its operand is known (R165): `op` is the AND, EOR or OR of A
and the operand. -/
theorem runRead_writeLogic (op : Byte → Byte → Byte) (hop : operand f s = .ok (m, s₁)) :
    runRead (fun m s => writeLogic (op s.a m) s) f s = .next { s with
      a := op s.a m
      p := { s.p with n := (op s.a m).msb, z := op s.a m == 0 }
      pc := s.pc + f.length
      draws := s₁.draws } :=
  runRead_of_operand hop

/-- What BIT writes once its operand is known: A is read and not written (R169). -/
theorem bitTest_of_operand {form : MemForm} (hop : operand (.mem form) s = .ok (m, s₁)) :
    bitTest form s = .next { s with
      p := { s.p with n := m.getLsbD 7, v := m.getLsbD 6, z := decide (s.a &&& m = 0) }
      pc := s.pc + form.length, draws := s₁.draws } :=
  runRead_of_operand hop

end

/-- Settles O31: row by row, the instruction is AND, EOR or ORA with the form of its row (`runRead_writeLogic`). -/
theorem logicResults : Obligations.LogicResults := by
  intro b a i f r s s₁ m hop hrow
  iterate 8
    obtain h | hrow := List.mem_cons.mp hrow
    · cases h
      exact (runRead_writeLogic (· &&& ·) hop : andA _ s = _)
  iterate 8
    obtain h | hrow := List.mem_cons.mp hrow
    · cases h
      exact (runRead_writeLogic (· ^^^ ·) hop : eorA _ s = _)
  iterate 8
    obtain h | hrow := List.mem_cons.mp hrow
    · cases h
      exact (runRead_writeLogic (· ||| ·) hop : oraA _ s = _)
  cases hrow

/-- Settles O32: each of the two rows is BIT with the address form of its row (`bitTest_of_operand`). -/
theorem bitTestsMemory : Obligations.BitTestsMemory := by
  intro b a i f s s₁ m hrow hop
  iterate 2
    obtain h | hrow := List.mem_cons.mp hrow
    · cases h
      exact (bitTest_of_operand hop : bitTest _ s = _)
  cases hrow

end Sys2Proof.Machine

/-! The shift and rotate bytes (R176 to R179): their arithmetic, and the rotates as a ring of nine bits. -/

namespace Sys2Proof.Machine

/-- ROL is the byte with the old carry shifted in below it (R179). -/
theorem rolByte_eq_shiftConcat (m : Byte) (c : Bool) : rolByte m c = (m.shiftConcat c, m.getLsbD 7) := by
  refine Prod.ext (BitVec.eq_of_getLsbD_eq fun k hk => ?_) rfl
  rw [rolByte, BitVec.getLsbD_or, BitVec.getLsbD_shiftLeft, BitVec.getLsbD_shiftConcat, BitVec.getLsbD_setWidth,
    BitVec.getLsbD_ofBool]
  obtain rfl | hpos := Nat.eq_zero_or_pos k
  · simp
  · simp [hk, hpos.ne']

/-- ROR is the upper eight of the nine bits of carry and byte (R178). -/
theorem rorByte_eq_extractLsb (m : Byte) (c : Bool) :
    rorByte m c = ((BitVec.cons c m).extractLsb' 1 8, m.getLsbD 0) := by
  refine Prod.ext (BitVec.eq_of_getLsbD_eq fun k hk => ?_) rfl
  rw [rorByte, BitVec.getLsbD_or, BitVec.getLsbD_ushiftRight, BitVec.getLsbD_shiftLeft, BitVec.getLsbD_setWidth,
    BitVec.getLsbD_ofBool, BitVec.getLsbD_extractLsb', BitVec.getLsbD_cons]
  obtain rfl | hlt := Nat.eq_or_lt_of_le (Nat.le_of_lt_succ hk)
  · simp
  · simp [hk, hlt]
    omega

/-- The bit that leaves to the left (R176, R179). -/
theorem getLsbD_seven_iff (m : Byte) : m.getLsbD 7 = true ↔ 2 * m.toNat ≥ 256 := by
  rw [← BitVec.msb_eq_true_iff_two_mul_ge, BitVec.msb_eq_getLsbD_last]

/-- The bit that leaves to the right (R177, R178). -/
theorem getLsbD_zero_iff (m : Byte) : m.getLsbD 0 = true ↔ m.toNat % 2 = 1 := by
  rw [BitVec.getLsbD, Nat.testBit_zero, decide_eq_true_iff]

theorem aslByte_toNat (m : Byte) (c : Bool) : (aslByte m c).1.toNat = 2 * m.toNat % 256 := by
  rw [aslByte, BitVec.toNat_shiftLeft, Nat.shiftLeft_eq, Nat.mul_comm]

theorem lsrByte_toNat (m : Byte) (c : Bool) : (lsrByte m c).1.toNat = m.toNat / 2 := by
  rw [lsrByte, BitVec.toNat_ushiftRight, Nat.shiftRight_eq_div_pow]

theorem rolByte_toNat (m : Byte) (c : Bool) : (rolByte m c).1.toNat = (2 * m.toNat + c.toNat) % 256 := by
  rw [rolByte_eq_shiftConcat, BitVec.toNat_shiftConcat, Nat.shiftLeft_eq, Nat.mul_comm]

theorem rorByte_toNat (m : Byte) (c : Bool) : (rorByte m c).1.toNat = m.toNat / 2 + 128 * c.toNat := by
  have hm : m.toNat < 256 := m.isLt
  have hc : c.toNat < 2 := c.toNat_lt
  rw [rorByte_eq_extractLsb, BitVec.extractLsb'_toNat, BitVec.toNat_cons', Nat.shiftLeft_eq, Nat.shiftRight_eq_div_pow]
  omega

/-- Settles O35: each result is its `toNat` lemma, and the bit that leaves is bit 7 to the left and bit 0 to the right. -/
theorem shiftsAsArithmetic : Obligations.ShiftsAsArithmetic := by
  intro m c
  exact ⟨⟨aslByte_toNat m c, getLsbD_seven_iff m⟩, ⟨lsrByte_toNat m c, getLsbD_zero_iff m⟩,
    ⟨rolByte_toNat m c, getLsbD_seven_iff m⟩, ⟨rorByte_toNat m c, getLsbD_zero_iff m⟩⟩

/-- The bits a rotate moves in a ring: the byte at the places 0 to 7, the carry at 8. -/
def ringBit (q : Byte × Bool) (i : Fin 9) : Bool := (BitVec.cons q.2 q.1).getLsbD i

theorem ringBit_castSucc (q : Byte × Bool) (j : Fin 8) : ringBit q j.castSucc = q.1.getLsbD j := by
  rw [ringBit, BitVec.getLsbD_cons, Fin.val_castSucc, if_neg j.isLt.ne]

theorem ringBit_last (q : Byte × Bool) : ringBit q (Fin.last 8) = q.2 := by
  rw [ringBit, BitVec.getLsbD_cons, Fin.val_last, if_pos rfl]

/-- The nine bits determine byte and carry. -/
theorem eq_of_ringBit_eq {p q : Byte × Bool} (h : ∀ i, ringBit p i = ringBit q i) : p = q := by
  refine Prod.ext (BitVec.eq_of_getLsbD_eq fun k hk => ?_) ?_
  · simpa only [ringBit_castSucc] using h (Fin.castSucc ⟨k, hk⟩)
  · simpa only [ringBit_last] using h (Fin.last 8)

/-- ROL moves every bit of the ring one place up, the carry to place 0 (R179). -/
theorem ringBit_rolByte (m : Byte) (c : Bool) (i : Fin 9) : ringBit (rolByte m c) (i + 1) = ringBit (m, c) i := by
  rw [rolByte_eq_shiftConcat]
  cases i using Fin.lastCases with
  | last =>
    rw [ringBit_last, Fin.last_add_one, ← Fin.castSucc_zero, ringBit_castSucc]
    simp
  | cast j =>
    rw [ringBit_castSucc, Fin.coeSucc_eq_succ]
    cases j using Fin.lastCases with
    | last => exact ringBit_last _
    | cast k =>
      have hk : (k : Nat) + 1 < 8 := by omega
      rw [← Fin.castSucc_succ, ringBit_castSucc, BitVec.getLsbD_shiftConcat, Fin.val_succ,
        decide_eq_true hk, if_neg (Nat.succ_ne_zero _), Nat.add_sub_cancel, Bool.true_and, Fin.val_castSucc]

/-- ROR moves every bit of the ring one place down, the bit of place 0 to the carry (R178). -/
theorem ringBit_rorByte (m : Byte) (c : Bool) (i : Fin 9) : ringBit (rorByte m c) i = ringBit (m, c) (i + 1) := by
  rw [rorByte_eq_extractLsb]
  cases i using Fin.lastCases with
  | last =>
    rw [ringBit_last, Fin.last_add_one, ← Fin.castSucc_zero, ringBit_castSucc]
    rfl
  | cast j =>
    rw [ringBit_castSucc, Fin.coeSucc_eq_succ]
    simp [ringBit, Nat.add_comm]

/-- `n` ROLs move every bit of the ring `n` places up. -/
theorem ringBit_rolByte_iterate (n : Nat) (q : Byte × Bool) (i : Fin 9) :
    ringBit ((fun q : Byte × Bool => rolByte q.1 q.2)^[n] q) (i + Fin.ofNat 9 n) = ringBit q i := by
  induction n with
  | zero => simp
  | succ n ih =>
    have hsucc : Fin.ofNat 9 (n + 1) = Fin.ofNat 9 n + 1 := by simp [Fin.ext_iff, Fin.val_add]
    rw [Function.iterate_succ_apply', hsucc, ← add_assoc, ringBit_rolByte]
    exact ih

/-- Settles O36: the rotates move the ring of nine bits by one place, up and down, and nine places are once around. -/
theorem rotatesUndoEachOther : Obligations.RotatesUndoEachOther := by
  intro m c
  refine ⟨eq_of_ringBit_eq fun i => ?_, eq_of_ringBit_eq fun i => ?_, eq_of_ringBit_eq fun i => ?_⟩
  · rw [ringBit_rorByte, Prod.mk.eta, ringBit_rolByte]
  · rw [← sub_add_cancel i 1, ringBit_rolByte, Prod.mk.eta, ringBit_rorByte]
  · have hnine : Fin.ofNat 9 9 = 0 := rfl
    simpa only [hnine, add_zero] using ringBit_rolByte_iterate 9 (m, c) i

end Sys2Proof.Machine

/-! The conditional branches (R195): taken or not, only PC is assigned. -/

namespace Sys2Proof.Machine

theorem runBranch_assigns_pc (taken : Bool) (b : Byte) (s : State) :
    (taken = true → runBranch taken b s = .next { s with pc := branchTarget s.par.relOffset s.pc b }) ∧
      (taken = false → runBranch taken b s = .next { s with pc := s.pc + 2 }) := by
  constructor
  · rintro rfl
    exact runBranch_next true b s
  · rintro rfl
    exact runBranch_next false b s

/-- Settles O37: row by row, the instruction is `runBranch` at its condition, which assigns PC alone (`runBranch_assigns_pc`). -/
theorem branchesTestOneFlag : Obligations.BranchesTestOneFlag := by
  intro b s i cond hrow
  have hexec : exec i s = runBranch cond b s := by
    iterate 8
      obtain h | hrow := List.mem_cons.mp hrow
      · cases h
        rfl
    cases hrow
  rw [hexec]
  exact runBranch_assigns_pc cond b s

end Sys2Proof.Machine

/-! Jumps and subroutines (R210 to R214): JMP assigns PC alone, RTS is two pulls and the jump past the word they give, and on plain
memory it undoes a JSR. -/

namespace Sys2Proof.Machine

/-! JMP. -/

theorem exec_jmpInd {a target : Word} {s t : State} (h : indirectTarget a s = .ok (target, t)) :
    exec (.jmpInd a) s = .next (t.setPc target) :=
  outcome_next.mpr (bind_ok.mpr ⟨_, h, rfl⟩)

theorem exec_jmpInd_refused {a : Word} {s : State} {r : Refusal} (h : indirectTarget a s = .error r) :
    exec (.jmpInd a) s = .refused r :=
  outcome_refused.mpr (bind_error.mpr (.inl h))

/-- Settles O38: the direct form sets PC; the indirect form sets it after reads that change the count of free values only
(`indirectTarget_frame`), and passes on a refusal of them. -/
theorem jumpsAssignPc : Obligations.JumpsAssignPc := by
  refine fun a s => ⟨rfl, fun target t htarget => ?_, fun r => exec_jmpInd_refused⟩
  have hexec := exec_jmpInd htarget
  obtain ⟨n, rfl⟩ := indirectTarget_frame htarget
  exact hexec

/-! RTS. -/

theorem exec_rts {s s₁ s₂ : State} {lo hi : Byte} (hlo : pull s = .ok (lo, s₁)) (hhi : pull s₁ = .ok (hi, s₂)) :
    exec .rts s = .next (s₂.setPc (wordOf hi lo + 1)) :=
  outcome_next.mpr (bind_ok.mpr ⟨_, hlo, bind_ok.mpr ⟨_, hhi, rfl⟩⟩)

/-- Settles O40: two pulls move SP and the count of free values only (`pull_pull_frame`), and PC is one past the word pulled. -/
theorem rtsReturnsPastThePulledAddress : Obligations.RtsReturnsPastThePulledAddress := by
  intro s s₁ s₂ lo hi hlo hhi
  have hsp : s.sp + 1 + 1 = s.sp + 2 := by bv_omega
  have hpc : (wordOf hi lo + 1).toNat = (hi.toNat * 256 + lo.toNat + 1) % 65536 := by
    rw [BitVec.toNat_add, wordOf_toNat]
    rfl
  refine ⟨_, exec_rts hlo hhi, ?_, hpc⟩
  obtain ⟨n, rfl⟩ := pull_pull_frame hlo hhi
  rw [hsp]
  rfl

/-! A call and its return, on plain memory. -/

theorem kindAt_plainMemory {s : State} (h : s.PlainMemory) (a : Word) : s.kindAt a = .ram := by
  simp [State.kindAt, h.1]

theorem pull_plainMemory {s : State} (h : s.PlainMemory) :
    pull s = .ok (s.mem.read (stackAddress (s.sp + 1)).toNat, s.setSp (s.sp + 1)) :=
  readByte_plainMemory (s := s.setSp (s.sp + 1)) h _

/-- On plain memory RTS goes to one past the word in the two stack bytes above SP (R213). -/
theorem exec_rts_plainMemory {s : State} (h : s.PlainMemory) :
    exec .rts s = .next ((s.setSp (s.sp + 1 + 1)).setPc
      (wordOf (s.mem.read (stackAddress (s.sp + 1 + 1)).toNat) (s.mem.read (stackAddress (s.sp + 1)).toNat) + 1)) :=
  exec_rts (pull_plainMemory h) (pull_plainMemory (s := s.setSp (s.sp + 1)) h)

/-- On plain memory a JSR that does not overlap goes to its operand and leaves the word `pc + 2` in the two stack bytes above its
new SP (R211, by O39's statement). -/
theorem exec_jsr_plainMemory (target : Word) {s : State} (h : s.PlainMemory) (hover : jsrOverlaps s = false) :
    ∃ m, exec (.jsr target) s = .next (((s.setMem m).setSp (s.sp - 2)).setPc target) ∧
      m.read (stackAddress s.sp).toNat = hiByte (s.pc + 2) ∧
      m.read (stackAddress (s.sp - 1)).toNat = loByte (s.pc + 2) := by
  have hne : ¬ (s.pc + 2 = stackAddress s.sp ∨ s.pc + 2 = stackAddress (s.sp - 1)) :=
    jsrOverlaps_iff.not.mp (by simp [hover])
  obtain ⟨hne₁, hne₂⟩ := not_or.mp hne
  have hio := State.isIo_of_noDevices h.2
  obtain ⟨t, hexec, ht, hhi, hlo, -⟩ := (jsrPushesItsLastByteAddress target s).2 hne₁ hne₂ (hio _) (hio _)
  exact ⟨t.mem, hexec.trans (congrArg _ ht), hhi (kindAt_plainMemory h _), hlo (kindAt_plainMemory h _)⟩

/-- Settles O41: the RTS pulls from the two cells that the JSR pushed to, so the word it pulls is `pc + 2`. -/
theorem callThenReturn : Obligations.CallThenReturn := by
  intro target s h hover
  obtain ⟨m, hjsr, hhi, hlo⟩ := exec_jsr_plainMemory target h hover
  refine ⟨_, hjsr, rfl, fun u hsp hpar huhi hulo => ?_⟩
  have hu : u.PlainMemory := by rwa [State.PlainMemory, hpar]
  have hsp₁ : u.sp + 1 = s.sp - 1 := by
    rw [hsp]
    show s.sp - 2 + 1 = _
    bv_omega
  have hsp₂ : s.sp - 1 + 1 = s.sp := BitVec.sub_add_cancel s.sp 1
  have hpc : s.pc + 2 + 1 = s.pc + 3 := by bv_omega
  rw [exec_rts_plainMemory hu, hsp₁, hsp₂, huhi.trans hhi, hulo.trans hlo, wordOf_hi_lo, hpc]
  rfl

end Sys2Proof.Machine

/-! Flag and system instructions, interrupts and reset (R220 to R231, R245, R281): the frame an entry pushes and an RTI pulls, and
what the flag instructions and the reset event write. -/

namespace Sys2Proof.Machine

/-- Settles O42: row by row, the instruction computes to the state with the P of its row and PC one further. -/
theorem flagInstructions : Obligations.FlagInstructions := by
  intro s i p hrow
  iterate 8
    obtain h | hrow := List.mem_cons.mp hrow
    · cases h
      rfl
  cases hrow

/-! The frame of an interrupt entry. -/

/-- Of the flags, what the frame is pushed with differs in B only, and only for BRK under `latched` (R27, R245). -/
theorem InterruptKind.markB_eq (k : InterruptKind) (model : BFlagModel) (p : Status) :
    k.markB model p = { p with b := if k = .brk ∧ model = .latched then true else p.b } := by
  cases k <;> cases model <;> rfl

/-- Whatever B is, bit 4 of the byte an entry pushes says BRK or not (R245). -/
theorem InterruptKind.pushed_markB (k : InterruptKind) (model : BFlagModel) (p : Status) :
    (k.markB model p).pushedByInterrupt k = { p with b := decide (k = InterruptKind.brk) }.toByte := by
  rw [k.markB_eq]
  cases k with
  | brk => exact Status.toByte_or_bit4 _
  | irq | nmi => exact Status.toByte_and_bit4 _

/-- Settles O44: `takeInterrupt_cases` says which fields an entry writes, `takeInterrupt_other` which bytes it leaves. -/
theorem interruptEntryFrame : Obligations.InterruptEntryFrame := by
  intro k s t h
  refine ⟨?_, fun hk => ?_, fun c => takeInterrupt_other h⟩ <;>
    obtain ⟨target, n, mem, rfl⟩ := takeInterrupt_cases h
  · have hsp : s.sp - 1 - 1 - 1 = s.sp - 3 := by bv_omega
    rw [k.markB_eq, hsp]
  · simp [k.markB_eq, hk]

theorem push_plainMemory {s : State} (h : s.PlainMemory) (v : Byte) :
    ∃ m, push v s = .ok ((s.setMem m).setSp (s.sp - 1)) ∧ m.read (stackAddress s.sp).toNat = v ∧
      ∀ c, c ≠ (stackAddress s.sp).toNat → m.read c = s.mem.read c := by
  obtain ⟨m, hpush, hram, -, hother⟩ := push_result v (State.isIo_of_noDevices h.2 _)
  exact ⟨m, hpush, hram (kindAt_plainMemory h _), hother⟩

theorem read16_plainMemory {s : State} (h : s.PlainMemory) (a : Word) :
    read16 a s = .ok (wordOf (s.mem.read (a + 1).toNat) (s.mem.read a.toNat), s) :=
  read16_of_reads (readByte_plainMemory h a) (readByte_plainMemory h (a + 1))

/-- On plain memory every entry answers: the three pushes go to three different cells, so each leaves its byte there, and the vector
is read after them (R245). -/
theorem takeInterrupt_plainMemory (k : InterruptKind) {s : State} (h : s.PlainMemory) :
    ∃ m, takeInterrupt k s = .ok { s with
        sp := s.sp - 3
        mem := m
        p := { k.markB s.par.bFlagModel s.p with i := true }
        pc := wordOf (m.read (k.vector + 1).toNat) (m.read k.vector.toNat) } ∧
      m.read (stackAddress s.sp).toNat = hiByte (k.returnAddress s.pc) ∧
      m.read (stackAddress (s.sp - 1)).toNat = loByte (k.returnAddress s.pc) ∧
      m.read (stackAddress (s.sp - 2)).toNat = (k.markB s.par.bFlagModel s.p).pushedByInterrupt k := by
  obtain ⟨m₁, hpush₁, hhi, -⟩ := push_plainMemory h (hiByte (k.returnAddress s.pc))
  obtain ⟨m₂, hpush₂, hlo, hother₂⟩ :=
    push_plainMemory (s := (s.setMem m₁).setSp (s.sp - 1)) h (loByte (k.returnAddress s.pc))
  obtain ⟨m₃, hpush₃, hp, hother₃⟩ :=
    push_plainMemory (s := ((s.setMem m₂).setSp (s.sp - 1 - 1)).setP (k.markB s.par.bFlagModel s.p)) h
      ((k.markB s.par.bFlagModel s.p).pushedByInterrupt k)
  have hread := read16_plainMemory
    (s := ((s.setMem m₃).setSp (s.sp - 1 - 1 - 1)).setP { k.markB s.par.bFlagModel s.p with i := true }) h k.vector
  have hsp₂ : s.sp - 1 - 1 = s.sp - 2 := by bv_omega
  have hsp₃ : s.sp - 1 - 1 - 1 = s.sp - 3 := by bv_omega
  have hne₁₂ := stackAddress_toNat_ne_pred s.sp
  have hne₂₃ := stackAddress_toNat_ne_pred (s.sp - 1)
  have hne₁₃ : (stackAddress s.sp).toNat ≠ (stackAddress (s.sp - 1 - 1)).toNat := by
    simp only [stackAddress_toNat]
    bv_omega
  refine ⟨m₃, ?_, ?_, ?_, ?_⟩
  · rw [← hsp₃]
    exact bind_ok.mpr ⟨_, hpush₁, bind_ok.mpr ⟨_, hpush₂, bind_ok.mpr ⟨_, hpush₃, bind_ok.mpr ⟨_, hread, rfl⟩⟩⟩⟩
  · exact (hother₃ _ hne₁₃).trans ((hother₂ _ hne₁₂).trans hhi)
  · exact (hother₃ _ hne₂₃).trans hlo
  · rw [← hsp₂]
    exact hp

/-- Settles O43: each row is the kind's own return address, vector and bit 4, with which `takeInterrupt_plainMemory` speaks of the
frame. -/
theorem interruptEntrySavesTheFrame : Obligations.InterruptEntrySavesTheFrame := by
  refine fun s h => ⟨rfl, fun k ret vec bit4 hrow => ?_⟩
  have hkind : ret = k.returnAddress s.pc ∧ vec = k.vector ∧ vec.toNat + 1 = (k.vector + 1).toNat ∧
      bit4 = decide (k = .brk) := by
    simp only [List.mem_cons, Prod.mk.injEq, List.not_mem_nil, or_false] at hrow
    obtain ⟨rfl, rfl, rfl, rfl⟩ | ⟨rfl, rfl, rfl, rfl⟩ | ⟨rfl, rfl, rfl, rfl⟩ := hrow <;> exact ⟨rfl, rfl, rfl, rfl⟩
  obtain ⟨rfl, rfl, hnext, rfl⟩ := hkind
  obtain ⟨m, htake, hhi, hlo, hp⟩ := takeInterrupt_plainMemory k h
  rw [k.pushed_markB] at hp
  refine ⟨_, htake, ?_, hhi, hlo, hp, fun c => takeInterrupt_other htake⟩
  rw [k.markB_eq, hnext]

/-! The return from an interrupt. -/

/-- A pull neither reads nor writes P. -/
theorem pull_setP {s t : State} {v : Byte} (p : Status) (h : pull s = .ok (v, t)) :
    pull (s.setP p) = .ok (v, t.setP p) := by
  have hio : s.isIo (stackAddress (s.sp + 1)) = false := (readByte_answers _ (s.setSp (s.sp + 1))).mp ⟨_, h⟩
  by_cases hk : s.kindAt (stackAddress (s.sp + 1)) = .unmapped
  · have hread := readByte_unmapped (s := s.setSp (s.sp + 1)) hio hk
    cases hread.symm.trans h
    exact readByte_unmapped (s := (s.setP p).setSp (s.sp + 1)) hio hk
  · have hread := readByte_plain (s := s.setSp (s.sp + 1)) hio hk
    cases hread.symm.trans h
    exact readByte_plain (s := (s.setP p).setSp (s.sp + 1)) hio hk

/-- RTI is three pulls, P from the first and PC from the other two (R229). -/
theorem exec_rti {s s₁ s₂ s₃ : State} {v lo hi : Byte} (hv : pull s = .ok (v, s₁)) (hlo : pull s₁ = .ok (lo, s₂))
    (hhi : pull s₂ = .ok (hi, s₃)) :
    exec .rti s = .next ((s₃.setP (Status.ofByte s₁.par.bFlagModel s₁.p v)).setPc (wordOf hi lo)) :=
  outcome_next.mpr (bind_ok.mpr ⟨_, hv, bind_ok.mpr ⟨_, pull_setP _ hlo, bind_ok.mpr ⟨_, pull_setP _ hhi, rfl⟩⟩⟩)

/-- Settles O45: `exec_rti`; the three pulls move SP and the count of free values only (`pull_frame`). -/
theorem rtiRestoresStatusAndPc : Obligations.RtiRestoresStatusAndPc := by
  intro s s₁ s₂ s₃ v lo hi hv hlo hhi
  have hsp : s.sp + 1 + 1 + 1 = s.sp + 3 := by bv_omega
  rw [exec_rti hv hlo hhi, ← hsp]
  obtain ⟨_, rfl⟩ := pull_frame hv
  obtain ⟨_, rfl⟩ := pull_frame hlo
  obtain ⟨n, rfl⟩ := pull_frame hhi
  simp only [State.setPc, State.setP, State.setSp, State.setDraws]

/-- On plain memory RTI takes P and PC from the three stack bytes above SP (R229, by O45's statement). -/
theorem exec_rti_plainMemory {s : State} (h : s.PlainMemory) :
    exec .rti s = .next { s with
      p := Status.ofByte s.par.bFlagModel s.p (s.mem.read (stackAddress (s.sp + 1)).toNat)
      sp := s.sp + 3
      pc := wordOf (s.mem.read (stackAddress (s.sp + 1 + 1 + 1)).toNat) (s.mem.read (stackAddress (s.sp + 1 + 1)).toNat) } :=
  rtiRestoresStatusAndPc s (s.setSp (s.sp + 1)) (s.setSp (s.sp + 1 + 1)) (s.setSp (s.sp + 1 + 1 + 1)) _ _ _
    (pull_plainMemory h) (pull_plainMemory (s := s.setSp (s.sp + 1)) h) (pull_plainMemory (s := s.setSp (s.sp + 1 + 1)) h)

/-- `SetP` of a status byte gives back its flags, B under `latched` only (R23, R27). -/
theorem Status.ofByte_toByte_model (model : BFlagModel) (old p : Status) :
    Status.ofByte model old p.toByte = { p with b := if model = .latched then p.b else old.b } := by
  cases model with
  | latched => exact Status.ofByte_toByte old p
  | pushOnly => exact congrArg (fun q : Status => { q with b := old.b }) (Status.ofByte_toByte old p)

/-- Settles O46: the RTI pulls from the three cells that the BRK pushed to (`interruptEntrySavesTheFrame`), and `SetP` undoes
`GetP` up to B. -/
theorem breakThenReturn : Obligations.BreakThenReturn := by
  intro s h
  obtain ⟨hexec, hentry⟩ := interruptEntrySavesTheFrame s h
  obtain ⟨t, htake, ht, hhi, hlo, hp, -⟩ := hentry .brk _ _ _ List.mem_cons_self
  refine ⟨t, hexec.trans (outcome_next.mpr htake), fun u hsp hpar huhi hulo hup => ?_⟩
  have htsp : t.sp = s.sp - 3 := congrArg State.sp ht
  have hupar : u.par = s.par := hpar.trans (congrArg State.par ht :)
  have hu : u.PlainMemory := by rwa [State.PlainMemory, hupar]
  have hsp₁ : u.sp + 1 = s.sp - 2 := by bv_omega
  have hsp₂ : s.sp - 2 + 1 = s.sp - 1 := by bv_omega
  have hsp₃ : s.sp - 1 + 1 = s.sp := BitVec.sub_add_cancel s.sp 1
  have hsp₀ : u.sp + 3 = s.sp := by bv_omega
  rw [exec_rti_plainMemory hu, hsp₁, hsp₂, hsp₃, hsp₀, huhi.trans hhi, hulo.trans hlo, hup.trans hp, wordOf_hi_lo, hupar,
    Status.ofByte_toByte_model]

/-! The reset event. -/

/-- Settles O48: both bytes of the vector are plain memory, so the reset event reads them from the memory it leaves as it is. -/
theorem resetEventRule : Obligations.ResetEventRule := by
  intro s hio₁ hio₂ hk₁ hk₂
  have hread : read16 Config.vecReset s.drawnAtReset =
      .ok (wordOf (s.mem.read 0xFFFD) (s.mem.read 0xFFFC), s.drawnAtReset) :=
    read16_of_reads (readByte_plain hio₁ hk₁) (readByte_plain hio₂ hk₂)
  exact ⟨_, bind_ok.mpr ⟨_, hread, rfl⟩, rfl, rfl, rfl, rfl, wordOf_toNat _ _, rfl, rfl, rfl⟩

end Sys2Proof.Machine

/-! The order in which a step serves its events (R247 to R251). -/

namespace Sys2Proof.Machine

theorem sampleInputs_nil {s : State} (h : s.inputs = []) : sampleInputs s = s := by
  rw [sampleInputs, h]

theorem sampleInputs_cons {s : State} {i : InputSample} {rest : List InputSample} (h : s.inputs = i :: rest) :
    sampleInputs s = { s with
      inputs := rest
      resetLine := i.reset
      irq := i.irq
      nmiPending := s.nmiPending || i.nmiEdge } := by
  rw [sampleInputs, h]

section
variable {s : State}

theorem pendingEvent_reset (hr : s.resetLine = true) : pendingEvent s = some .reset := by
  simp [pendingEvent, hr]

theorem pendingEvent_nmi (hr : s.resetLine = false) (hn : s.nmiPending = true) : pendingEvent s = some .nmi := by
  simp [pendingEvent, hr, hn]

theorem pendingEvent_irq (hr : s.resetLine = false) (hn : s.nmiPending = false) (hirq : s.irq = true) (hi : s.p.i = false) :
    pendingEvent s = some .irq := by
  simp [pendingEvent, hr, hn, hirq, hi]

theorem pendingEvent_none (hr : s.resetLine = false) (hn : s.nmiPending = false) (hirq : s.irq = false ∨ s.p.i = true) :
    pendingEvent s = none := by
  obtain h | h := hirq
  · simp [pendingEvent, hr, hn, h]
  · simp [pendingEvent, hr, hn, h]

/-- A step that serves an event does nothing else. -/
theorem step_of_event {e : HardwareEvent} (h : pendingEvent (sampleInputs s) = some e) :
    step s = outcome (serveEvent e (sampleInputs s)) := by
  simp only [step, h]

theorem step_of_fetch_refused {r : Refusal} (hq : pendingEvent (sampleInputs s) = none)
    (hf : fetchInstr (sampleInputs s) = .error r) : step s = .refused r := by
  simp only [step, hq, hf]

end

/-- Settles O47: what a step does with each answer of `pendingEvent`, and what that answers for the sampled inputs. -/
theorem stepServesEventsInOrder : Obligations.StepServesEventsInOrder := by
  refine ⟨fun _ => sampleInputs_nil, fun _ _ _ => sampleInputs_cons, ?_⟩
  rintro s u rfl
  refine ⟨fun hr => step_of_event (pendingEvent_reset hr), fun hr hn => step_of_event (pendingEvent_nmi hr hn),
    fun hr hn hirq hi => step_of_event (pendingEvent_irq hr hn hirq hi), fun hr hn hirq => ?_⟩
  have hq := pendingEvent_none hr hn hirq
  exact ⟨fun _ _ => step_of_fetch hq, fun _ => step_of_fetch_refused hq⟩

end Sys2Proof.Machine

/-! What can stop an instruction or a step (R241, R243): an operation that only reads, writes, pushes and pulls is refused by a
device region or not at all; JMP (Oper), JSR and the reserved opcodes add the stops of their own. Where no device is declared the
others therefore complete. -/

namespace Sys2Proof.Machine

/-- The stop is that of an access to a device region (R50, R243 (d)). -/
def IsDeviceStop (isIo : Word → Bool) (r : Refusal) : Prop := ∃ a, isIo a = true ∧ r = .ioRegion a

/-- The operation is refused by nothing but an access to a device region. -/
def RefusedOnlyByDevice {α : Type} (isIo : Word → Bool) (x : Except Refusal α) : Prop :=
  ∀ r, x = .error r → IsDeviceStop isIo r

namespace RefusedOnlyByDevice

section
variable {α β : Type} {isIo : Word → Bool} {a : Word} {s : State}

theorem of_error {x : Except Refusal α} {r : Refusal} (h : x = .error r) (hx : RefusedOnlyByDevice isIo x) :
    IsDeviceStop isIo r := hx r h

theorem of_outcome {x : Except Refusal State} {r : Refusal} (h : outcome x = .refused r)
    (hx : RefusedOnlyByDevice isIo x) : IsDeviceStop isIo r := hx r (outcome_refused.mp h)

theorem ok {v : α} : RefusedOnlyByDevice isIo (.ok v) := fun _ h => nomatch h

theorem bind {x : Except Refusal α} {f : α → Except Refusal β} (hx : RefusedOnlyByDevice isIo x)
    (hf : ∀ v, x = .ok v → RefusedOnlyByDevice isIo (f v)) : RefusedOnlyByDevice isIo (x >>= f) := by
  intro r h
  obtain h | ⟨v, hv, h⟩ := bind_error.mp h
  · exact hx r h
  · exact hf v hv r h

/-- Reads, and then what follows in the state they leave. -/
theorem reads_bind {x : Except Refusal (α × State)} {f : α × State → Except Refusal β} (hx : RefusedOnlyByDevice isIo x)
    (hframe : ∀ {v t}, x = .ok (v, t) → ∃ n, t = s.setDraws n)
    (hf : ∀ v n, RefusedOnlyByDevice isIo (f (v, s.setDraws n))) : RefusedOnlyByDevice isIo (x >>= f) := by
  refine hx.bind fun ⟨v, t⟩ h => ?_
  obtain ⟨n, rfl⟩ := hframe h
  exact hf v n

theorem of_readByte (hs : s.isIo = isIo) : RefusedOnlyByDevice isIo (readByte a s) :=
  fun _ h => ⟨a, hs ▸ readByte_refused h⟩

theorem of_writeByte {v : Byte} (hs : s.isIo = isIo) : RefusedOnlyByDevice isIo (writeByte a v s) :=
  fun _ h => ⟨a, hs ▸ writeByte_refused h⟩

theorem readByte_bind {f : Byte × State → Except Refusal β} (hs : s.isIo = isIo)
    (hf : ∀ v n, RefusedOnlyByDevice isIo (f (v, s.setDraws n))) :
    RefusedOnlyByDevice isIo (readByte a s >>= f) :=
  (of_readByte hs).reads_bind readByte_frame hf

theorem push_bind {v : Byte} {f : State → Except Refusal β} (hs : s.isIo = isIo)
    (hf : ∀ m, RefusedOnlyByDevice isIo (f ((s.setMem m).setSp (s.sp - 1)))) :
    RefusedOnlyByDevice isIo (push v s >>= f) := by
  refine bind ((of_writeByte hs).bind fun _ _ => ok) fun t h => ?_
  obtain ⟨m, rfl⟩ := push_frame h
  exact hf m

theorem pull_bind {f : Byte × State → Except Refusal β} (hs : s.isIo = isIo)
    (hf : ∀ v n, RefusedOnlyByDevice isIo (f (v, (s.setSp (s.sp + 1)).setDraws n))) :
    RefusedOnlyByDevice isIo (pull s >>= f) :=
  readByte_bind (s := s.setSp (s.sp + 1)) hs hf

end

end RefusedOnlyByDevice

/-! The operations. -/

section
open RefusedOnlyByDevice
variable (s : State)

theorem read16_refusedOnlyByDevice {s : State} {isIo : Word → Bool} (hs : s.isIo = isIo) (a : Word) :
    RefusedOnlyByDevice isIo (read16 a s) :=
  readByte_bind hs fun _ _ => readByte_bind hs fun _ _ => ok

theorem read16zp_refusedOnlyByDevice (z : Byte) : RefusedOnlyByDevice s.isIo (read16zp z s) :=
  readByte_bind rfl fun _ _ => readByte_bind rfl fun _ _ => ok

theorem effectiveAddress_refusedOnlyByDevice (m : MemForm) : RefusedOnlyByDevice s.isIo (effectiveAddress m s) := by
  cases m with
  | izx b => exact read16zp_refusedOnlyByDevice s _
  | izy b => exact (read16zp_refusedOnlyByDevice s b).bind fun _ _ => ok
  | _ => exact ok

theorem memOperand_refusedOnlyByDevice (m : MemForm) : RefusedOnlyByDevice s.isIo (memOperand m s) :=
  (effectiveAddress_refusedOnlyByDevice s m).reads_bind effectiveAddress_frame fun _ _ => of_readByte rfl

theorem takeInterrupt_refusedOnlyByDevice (k : InterruptKind) : RefusedOnlyByDevice s.isIo (takeInterrupt k s) := by
  refine push_bind rfl fun m₁ => push_bind rfl fun m₂ => ?_
  refine push_bind (State.isIo_of_par rfl) fun m₃ => ?_
  dsimp only
  refine (read16_refusedOnlyByDevice (State.isIo_of_par ?_) k.vector).bind fun _ _ => ok
  simp only [State.setP_par, State.setSp_par, State.setMem_par]

theorem returnFromInterrupt_refusedOnlyByDevice : RefusedOnlyByDevice s.isIo (returnFromInterrupt s) :=
  pull_bind rfl fun _ _ => pull_bind rfl fun _ _ => pull_bind rfl fun _ _ => ok

theorem serveEvent_refusedOnlyByDevice (e : HardwareEvent) : RefusedOnlyByDevice s.isIo (serveEvent e s) := by
  cases e with
  | reset => exact (read16_refusedOnlyByDevice (State.isIo_of_par rfl) Config.vecReset).bind fun _ _ => ok
  | nmi => exact takeInterrupt_refusedOnlyByDevice { s with nmiPending := false } .nmi
  | irq => exact takeInterrupt_refusedOnlyByDevice s .irq

theorem fetchInstr_refusedOnlyByDevice : RefusedOnlyByDevice s.isIo (fetchInstr s) := by
  refine readByte_bind rfl fun op n => ?_
  dsimp only
  split
  · exact ok
  · exact readByte_bind rfl fun _ _ => ok
  · exact readByte_bind rfl fun _ _ => readByte_bind rfl fun _ _ => ok
  · exact ok

/-- The target of a JMP (Oper): a device in its pointer, or R83's own stop. -/
theorem indirectTarget_refused {a : Word} {r : Refusal} (h : indirectTarget a s = .error r) :
    (loByte a = 0xFF ∧ s.par.jmpIndPageWrap = .unset ∧ r = .jmpIndirectPageEnd a) ∨
      IsDeviceStop s.isIo r := by
  obtain h | ⟨⟨lo, t⟩, hread, h⟩ := bind_error.mp h
  · exact .inr ⟨a, readByte_refused h⟩
  obtain ⟨n, rfl⟩ := readByte_frame hread
  dsimp only at h
  split at h
  · exact .inr (of_error h (readByte_bind rfl fun _ _ => ok))
  · next hlo =>
    split at h
    · next hwrap =>
      cases h
      exact .inl ⟨not_not.mp hlo, hwrap, rfl⟩
    · exact .inr (of_error h (readByte_bind rfl fun _ _ => ok))
    · exact .inr (of_error h (readByte_bind rfl fun _ _ => ok))

/-! The shapes. -/

theorem runRead_mem_refused {update : Byte → State → State} {m : MemForm} {r : Refusal}
    (h : runRead update (.mem m) s = .refused r) : IsDeviceStop s.isIo r :=
  of_outcome h ((memOperand_refusedOnlyByDevice s m).bind fun _ _ => ok)

theorem runStore_refused {v : Byte} {m : MemForm} {r : Refusal} (h : runStore v m s = .refused r) :
    IsDeviceStop s.isIo r := by
  refine of_outcome h ?_
  refine (effectiveAddress_refusedOnlyByDevice s m).reads_bind effectiveAddress_frame fun ea n => ?_
  exact (of_writeByte rfl).bind fun _ _ => ok

theorem runModifyMemory_refused {compute : Byte → Status → Byte × Status} {m : MemForm} {r : Refusal}
    (h : runModifyMemory compute m s = .refused r) : IsDeviceStop s.isIo r := by
  refine of_outcome h ?_
  refine (effectiveAddress_refusedOnlyByDevice s m).reads_bind effectiveAddress_frame fun ea n => ?_
  exact readByte_bind rfl fun _ _ => (of_writeByte rfl).bind fun _ _ => ok

theorem runPush_refused {v : Byte} {r : Refusal} (h : runPush v s = .refused r) : IsDeviceStop s.isIo r :=
  of_outcome h (push_bind rfl fun _ => ok)

theorem runPull_refused {update : Byte → State → State} {r : Refusal} (h : runPull update s = .refused r) :
    IsDeviceStop s.isIo r :=
  of_outcome h (pull_bind rfl fun _ _ => ok)

/-! The instructions with a meaning of their own. -/

theorem exec_jmpInd_refused_cases {a : Word} {r : Refusal} (h : exec (.jmpInd a) s = .refused r) :
    (loByte a = 0xFF ∧ s.par.jmpIndPageWrap = .unset ∧ r = .jmpIndirectPageEnd a) ∨ IsDeviceStop s.isIo r := by
  obtain h | ⟨_, _, h⟩ := bind_error.mp (outcome_refused.mp h)
  · exact indirectTarget_refused s h
  · cases h

theorem exec_jsr_refused_cases {a : Word} {r : Refusal} (h : exec (.jsr a) s = .refused r) :
    (jsrOverlaps s = true ∧ r = .jsrOverwritesOperand (s.pc + 2)) ∨ IsDeviceStop s.isIo r := by
  cases hover : jsrOverlaps s with
  | true =>
    rw [exec_jsr_overlap hover] at h
    cases h
    exact .inl ⟨rfl, rfl⟩
  | false =>
    rw [exec_jsr hover] at h
    exact .inr (of_outcome h (push_bind rfl fun _ => push_bind rfl fun _ => ok))

theorem exec_rts_refused {r : Refusal} (h : exec .rts s = .refused r) : IsDeviceStop s.isIo r :=
  of_outcome h <| pull_bind rfl fun _ _ => pull_bind rfl fun _ _ => ok

/-! Instructions and steps. -/

theorem exec_refused_of_memFormOf {i : Instr} {m : MemForm} {r : Refusal} (hform : memFormOf i = some m)
    (h : exec i s = .refused r) : IsDeviceStop s.isIo r := by
  obtain ⟨-, update, hx⟩ | ⟨v, hx⟩ | ⟨compute, hx⟩ := exec_of_memFormOf s hform <;> rw [hx] at h
  · exact runRead_mem_refused s h
  · exact runStore_refused s h
  · exact runModifyMemory_refused s h

/-- All an instruction can be refused for (R243 (a) to (d)). Without a memory form, an instruction that neither uses the stack nor
jumps through a pointer answers a next state. -/
theorem exec_refused_cases {i : Instr} {r : Refusal} (h : exec i s = .refused r) :
    (∃ op, i = .reserved op ∧ r = .reservedOpcode op) ∨
      (∃ a, i = .jmpInd a ∧ loByte a = 0xFF ∧ s.par.jmpIndPageWrap = .unset ∧ r = .jmpIndirectPageEnd a) ∨
      (∃ a, i = .jsr a ∧ jsrOverlaps s = true ∧ r = .jsrOverwritesOperand (s.pc + 2)) ∨
      IsDeviceStop s.isIo r := by
  cases hform : memFormOf i with
  | some m => exact .inr (.inr (.inr (exec_refused_of_memFormOf s hform h)))
  | none =>
    cases i with cases hform
    | reserved op =>
      cases h
      exact .inl ⟨op, rfl, rfl⟩
    | jmpInd a => exact .inr ((exec_jmpInd_refused_cases s h).imp (fun hstop => ⟨a, rfl, hstop⟩) .inr)
    | jsr a => exact .inr (.inr ((exec_jsr_refused_cases s h).imp (fun hstop => ⟨a, rfl, hstop⟩) id))
    | pha | php => exact .inr (.inr (.inr (runPush_refused s h)))
    | pla => exact .inr (.inr (.inr (runPull_refused s (show execPla s = _ from h))))
    | plp => exact .inr (.inr (.inr (runPull_refused s (show execPlp s = _ from h))))
    | rts => exact .inr (.inr (.inr (exec_rts_refused s h)))
    | brk => exact .inr (.inr (.inr (of_outcome h (takeInterrupt_refusedOnlyByDevice s .brk))))
    | rti => exact .inr (.inr (.inr (of_outcome h (returnFromInterrupt_refusedOnlyByDevice s))))
    | ldaImm | ldxImm | ldyImm | adcImm | sbcImm | cmpImm | cpxImm | cpyImm | andImm | eorImm | oraImm | aslAcc | lsrAcc
    | rolAcc | rorAcc | tax | tay | tsx | txa | txs | tya | inx | iny | dex | dey | clc | cld | cli | clv | sec | sed | sei
    | nop | bcc | bcs | beq | bmi | bne | bpl | bvc | bvs | jmpAbs => cases h

/-- All a step can be refused for: a device in the way of an event or of the fetch, or the instruction it fetched. -/
theorem step_refused_cases {s : State} {r : Refusal} (h : step s = .refused r) :
    IsDeviceStop s.isIo r ∨
      pendingEvent (sampleInputs s) = none ∧
        ∃ i t, fetchInstr (sampleInputs s) = .ok (i, t) ∧ exec i t = .refused r := by
  have hio : (sampleInputs s).isIo = s.isIo := State.isIo_of_par (sampleInputs_keeps s).par
  cases hq : pendingEvent (sampleInputs s) with
  | some e =>
    rw [step_of_event hq, outcome_refused] at h
    exact .inl (hio ▸ serveEvent_refusedOnlyByDevice _ e r h)
  | none =>
    cases hf : fetchInstr (sampleInputs s) with
    | error r' =>
      rw [step_of_fetch_refused hq hf] at h
      cases h
      exact .inl (hio ▸ fetchInstr_refusedOnlyByDevice _ r hf)
    | ok f =>
      obtain ⟨i, t⟩ := f
      rw [step_of_fetch hq hf] at h
      exact .inr ⟨rfl, i, t, rfl, h⟩

end

/-- Settles O51: the stops of an instruction (`exec_refused_cases`) and those of a step (`step_refused_cases`). -/
theorem onlyTheListedStops : Obligations.OnlyTheListedStops :=
  ⟨fun _ s _ => exec_refused_cases s, fun _ _ => step_refused_cases⟩

/-- Settles O50: there is no fault, and each stop of `exec_refused_cases` is one that the hypotheses exclude. -/
theorem everyInstructionCompletes : Obligations.EveryInstructionCompletes := by
  intro i s hdev hjsr hjmp hres
  cases hx : exec i s with
  | next t => exact ⟨t, rfl⟩
  | fault f => exact nomatch f
  | refused r =>
    obtain ⟨op, hi, -⟩ | ⟨a, hi, hlo, hwrap, -⟩ | ⟨a, hi, hover, -⟩ | ⟨a, hio, -⟩ := exec_refused_cases s hx
    · exact absurd hi (hres op)
    · exact absurd hwrap (hjmp a hi hlo)
    · rw [hjsr a hi] at hover
      cases hover
    · rw [State.isIo_of_noDevices hdev] at hio
      cases hio

end Sys2Proof.Machine
